-- ==== Sys2Proof/Word.lean ====
section
/-! DEFINITION. The word types of the station link and of the wrapping counts. -/

namespace Sys2Proof

/-- A byte of the station link (R171). -/
abbrev Byte := BitVec 8

/-- A two-byte number of a telegram (R185). -/
abbrev Word16 := BitVec 16

/-- A count of 0 to 2^32−1 that wraps: the station clock and uptime (R163). -/
abbrev Word32 := BitVec 32

/-- The station volume, 0 to 2^48−1 litres, which wraps (R165). -/
abbrev Word48 := BitVec 48

end Sys2Proof
end

