-- ==== Sys2Proof/Syntax.lean ====
section
/-! DEFINITION. The commands of the part: one constructor per row of `spec/opcode_table.json`, and the
operands they carry. Line events and timer expiries name the unit they concern; commands that may end in
a sampling round carry the gauge currents of that instant (log 4). -/

namespace Sys2Proof

/-- The six pump units (00_scope.md, "Field side"). -/
inductive UnitNo where
  | u1 | u2 | u3 | u4 | u5 | u6
  deriving DecidableEq, Repr

/-- One thing for each of the six units. -/
structure Six (α : Type) where
  u1 : α
  u2 : α
  u3 : α
  u4 : α
  u5 : α
  u6 : α
  deriving DecidableEq, Repr

/-- The four gauge channels (00_scope.md, "Gauge channels"). -/
inductive ChannelName where
  | ga | gb | go | gs
  deriving DecidableEq, Repr

/-- One thing for each of the four channels. -/
structure Four (α : Type) where
  ga : α
  gb : α
  go : α
  gs : α
  deriving DecidableEq, Repr

/-- The loop currents of the four gauges, in µA, at the instant of a round (R1). The current of a channel
that is not fitted is not looked at. -/
abbrev Currents := Four Nat

/-- The raw levels of the three input lines of a unit; `true` is asserted. -/
structure UnitLines where
  run : Bool
  trip : Bool
  primed : Bool
  deriving DecidableEq, Repr

/-- The raw levels of all input lines, which a reset takes as the filtered levels (R11). -/
structure FieldLines where
  units : Six UnitLines
  mainsOk : Bool
  curtail : Bool
  floatHigh : Bool
  floatLow : Bool
  sluiceAtOpen : Bool
  sluiceAtClosed : Bool
  rakeDone : Bool
  deriving DecidableEq, Repr

/-- What the field shows at a reset: the lines (R11) and the currents of the first round (R16). -/
structure FieldInputs where
  lines : FieldLines
  currents : Currents
  deriving DecidableEq, Repr

/-- The fields of a plan entry as PLAN_ADD carries them in its 12 bytes (R189). -/
structure PlanWords where
  time : Word32
  target : Word16
  marks : Byte
  band : Word16
  budget : Word16
  inhibit : Byte
  deriving DecidableEq, Repr

/-- The request kinds of section 11.7. -/
inductive RequestKind where
  | askStation | askGauges | askUnit | askPlan | askConfig | askCounters | takeEvents
  | setTarget | setBudget | setClock | setMode | setAlerts | clearAlerts
  | unitOrder | sluiceOrder | rakeOrder | planAdd | planClear
  | writeConfig | saveConfig | zeroCounters | restartPart
  deriving DecidableEq, Repr

/-- The commands. Every request carries its tag byte first (R171). -/
inductive Instr where
  /-- POWER_ON_RESET (R197): power is applied or RESET asserted, with this field. -/
  | powerOnReset (inp : FieldInputs)
  /-- SAMPLING_ROUND (R13): the scheduled round falls due. -/
  | samplingRound (cur : Currents)
  /-- RUN_ASSERTED (R42). -/
  | runAsserted (u : UnitNo)
  /-- RUN_RELEASED (R43). -/
  | runReleased (u : UnitNo)
  /-- TRIP_ASSERTED (R41). -/
  | tripAsserted (u : UnitNo)
  /-- TRIP_RELEASED (R41). -/
  | tripReleased (u : UnitNo)
  /-- PRIMED_ASSERTED (R33). -/
  | primedAsserted (u : UnitNo)
  /-- PRIMED_RELEASED (R33). -/
  | primedReleased (u : UnitNo)
  /-- PRIME_TIMER_EXPIRY (R36). -/
  | primeTimerExpiry (u : UnitNo) (cur : Currents)
  /-- START_TIMER_EXPIRY (R36). -/
  | startTimerExpiry (u : UnitNo) (cur : Currents)
  /-- STOP_TIMER_EXPIRY (R40). -/
  | stopTimerExpiry (u : UnitNo)
  /-- REST_TIMER_EXPIRY (R37). -/
  | restTimerExpiry (u : UnitNo) (cur : Currents)
  /-- MIN_RUN_TIMER_EXPIRY (R38). -/
  | minRunTimerExpiry (u : UnitNo)
  /-- RUN_LOSS_TIMER_EXPIRY (R43). -/
  | runLossTimerExpiry (u : UnitNo)
  /-- DWELL_TIMER_EXPIRY (R50). -/
  | dwellTimerExpiry (u : UnitNo)
  /-- UNIT_ORDER ENABLE (R55); `n` is the unit number as sent. -/
  | enable (tag n : Byte)
  /-- UNIT_ORDER DISABLE (R55). -/
  | disable (tag n : Byte)
  /-- UNIT_ORDER HAND_START (R56). -/
  | handStart (tag n : Byte) (cur : Currents)
  /-- UNIT_ORDER HAND_STOP (R56). -/
  | handStop (tag n : Byte)
  /-- UNIT_ORDER AUTO (R56). -/
  | unitAuto (tag n : Byte)
  /-- UNIT_ORDER CLEAR (R56). -/
  | unitClear (tag n : Byte)
  /-- ASK_UNIT (R57). -/
  | askUnit (tag n : Byte)
  /-- DISPATCH_EVALUATION (R74). -/
  | dispatchEvaluation (cur : Currents)
  /-- STAGGER_TIMER_EXPIRY (R101). -/
  | staggerTimerExpiry
  /-- SHED_DELAY_TIMER_EXPIRY (R115). -/
  | shedDelayTimerExpiry
  /-- CURTAIL_ASSERTED (R110). -/
  | curtailAsserted
  /-- CURTAIL_RELEASED (R110). -/
  | curtailReleased
  /-- SET_BUDGET (R109). -/
  | setBudget (tag : Byte) (budget : Word16)
  /-- HISTORY_TIMER_EXPIRY (R62). -/
  | historyTimerExpiry
  /-- ACCOUNTING_SECOND (R163). -/
  | accountingSecond
  /-- FLOAT_HIGH_ASSERTED (R12). -/
  | floatHighAsserted (cur : Currents)
  /-- FLOAT_HIGH_RELEASED (R12). -/
  | floatHighReleased (cur : Currents)
  /-- FLOAT_LOW_ASSERTED (R12). -/
  | floatLowAsserted (cur : Currents)
  /-- FLOAT_LOW_RELEASED (R12). -/
  | floatLowReleased (cur : Currents)
  /-- SLUICE_AT_OPEN_ASSERTED (R120). -/
  | sluiceAtOpenAsserted
  /-- SLUICE_AT_OPEN_RELEASED (R120). -/
  | sluiceAtOpenReleased
  /-- SLUICE_AT_CLOSED_ASSERTED (R120). -/
  | sluiceAtClosedAsserted
  /-- SLUICE_AT_CLOSED_RELEASED (R120). -/
  | sluiceAtClosedReleased
  /-- TRAVEL_TIMER_EXPIRY (R124). -/
  | travelTimerExpiry
  /-- SLUICE_ORDER AUTO (R126). -/
  | sluiceAuto (tag : Byte)
  /-- SLUICE_ORDER KEEP_CLOSED (R126). -/
  | sluiceKeepClosed (tag : Byte)
  /-- SLUICE_ORDER CLEAR (R126). -/
  | sluiceClear (tag : Byte)
  /-- RAKE_DONE_ASSERTED (R130). -/
  | rakeDoneAsserted
  /-- RAKE_DONE_RELEASED (R130). -/
  | rakeDoneReleased
  /-- RAKING_TIMER_EXPIRY (R130). -/
  | rakingTimerExpiry
  /-- INTERVAL_TIMER_EXPIRY (R129). -/
  | intervalTimerExpiry
  /-- PAUSE_TIMER_EXPIRY (R131). -/
  | pauseTimerExpiry
  /-- RAKE_ORDER START (R132). -/
  | rakeStart (tag : Byte)
  /-- RAKE_ORDER CLEAR (R132). -/
  | rakeClear (tag : Byte)
  /-- SET_TARGET (R137): target level (signed) and band. -/
  | setTarget (tag : Byte) (target band : Word16)
  /-- PLAN_ADD (R139). -/
  | planAdd (tag : Byte) (entry : PlanWords)
  /-- PLAN_CLEAR (R140). -/
  | planClear (tag : Byte)
  /-- ASK_PLAN (R141): the starting position. -/
  | askPlan (tag position : Byte)
  /-- SUPERVISION_TIMER_EXPIRY (R148). -/
  | supervisionTimerExpiry
  /-- SET_MODE HOLD (R150). -/
  | setModeHold (tag : Byte)
  /-- SET_MODE RELEASE (R150). -/
  | setModeRelease (tag : Byte)
  /-- MAINS_OK_RELEASED (R153). -/
  | mainsOkReleased (cur : Currents)
  /-- MAINS_OK_ASSERTED (R156). -/
  | mainsOkAsserted (cur : Currents)
  /-- SETTLE_TIMER_EXPIRY (R158). -/
  | settleTimerExpiry (cur : Currents)
  /-- RESTART_PART (R160). -/
  | restartPart (tag : Byte)
  /-- ASK_STATION (R183). -/
  | askStation (tag : Byte)
  /-- ASK_GAUGES (R186). -/
  | askGauges (tag : Byte) (cur : Currents)
  /-- ASK_COUNTERS (R167). -/
  | askCounters (tag : Byte)
  /-- SET_CLOCK (R168). -/
  | setClock (tag : Byte) (clock : Word32)
  /-- ZERO_COUNTERS (R169). -/
  | zeroCounters (tag : Byte)
  /-- TAKE_EVENTS (R192): the maximum count. -/
  | takeEvents (tag count : Byte)
  /-- SET_ALERTS (R194): one mark per class. -/
  | setAlerts (tag marks : Byte)
  /-- CLEAR_ALERTS (R193): one mark per class. -/
  | clearAlerts (tag marks : Byte)
  /-- WRITE_CONFIG of the link record (R173): the instance byte of the selector and the record's bytes. -/
  | writeConfigLink (tag inst : Byte) (record : List Byte)
  /-- WRITE_CONFIG of the station record (R198). -/
  | writeConfigStation (tag inst : Byte) (record : List Byte)
  /-- WRITE_CONFIG of a gauge record (R3). -/
  | writeConfigGauge (tag inst : Byte) (record : List Byte)
  /-- WRITE_CONFIG of a unit record (R29). -/
  | writeConfigUnit (tag inst : Byte) (record : List Byte)
  /-- ASK_CONFIG (R198): the record type and the instance. -/
  | askConfig (tag type inst : Byte)
  /-- SAVE_CONFIG (R199). -/
  | saveConfig (tag : Byte)
  /-- SAVE_ATTEMPT_COMPLETION (R200): whether the verify passed. -/
  | saveAttemptCompletion (passed : Bool)
  /-- UNKNOWN_KIND (R179): an accepted telegram of this kind, which is no request kind. -/
  | unknownKind (tag kind : Byte)
  /-- CHECK_FAILURE (R178): a complete telegram whose check fails. -/
  | checkFailure
  /-- OVERSIZE (R177): the length byte of a telegram, above 240, arrives. -/
  | oversize (length : Byte)
  /-- OVERRUN (R182): a marker is received while replying. -/
  | overrun
  /-- GAP_TIMER_EXPIRY (R176). -/
  | gapTimerExpiry
  /-- REPLY_END (R182), with the field at that instant (used when the reply ends in the restart). -/
  | replyEnd (inp : FieldInputs)
  /-- BYTE_RECEIVED (R175), with the currents at that instant (used when the byte completes a request). -/
  | byteReceived (b : Byte) (cur : Currents)
  /-- REFUSAL_LENGTH (R179): a telegram of this kind that passes its check but whose body has this length. -/
  | refusalLength (tag kind length : Byte)
  deriving DecidableEq, Repr

end Sys2Proof
end

