-- ==== Sys2Proof/Config.lean ====
section
/-! DEFINITION. The free values: what the spec leaves open and the machine goes on with. Each is an opaque
constant. One of a moment is applied to the counter `freeCount` of State, which every use advances, so that no
proof can know or repeat a value. What a setting stands for whose code names nothing is applied to that code,
so that it stays the same while the setting stands; what an operation gives on settings that no write would have
left is applied to its operands. The settings of the part are not here: they are state (the
working copy, R197). -/

namespace Sys2Proof

/-- Whether the fraction of a second that has run since the last accounting second is, at the reading of a
timer, still short of the fraction at which the timer was started. With `k` accounting seconds since the
start, the time left rounded up (R185) is the duration less `k`, plus one where this holds (log 8). -/
opaque Config.phaseShort : Nat → Bool

/-- The 32 bits an event record shows for a value its signed range cannot hold (log 10). -/
opaque Config.outOfRangeValue : Nat → Word32

/-- What the third failed attempt of a save left in the image (R200, log 11). -/
opaque Config.failedSaveImage : Nat → List Byte

/-- The gap limit, in milliseconds, of a gap limit code that names none (section 11.2, log 13). -/
opaque Config.unnamedGapLimit : Byte → Nat

/-- Whether a ranking mode code that names none ranks as ROTATE does (R86, R198, log 13). -/
opaque Config.unnamedModeRotates : Byte → Bool

/-- Whether a unit with an outlet code that names none works as a SIPHON unit (R32, R198, log 13). -/
opaque Config.unnamedOutletSiphon : Byte → Bool

/-- The numbers of the curve points that a point count above 6 calls for and a unit record does not hold: the record
and the number's place among head, flow and power of these points (R198, log 13). -/
opaque Config.missingPointNumber : List Byte → Nat → Nat

/-- The current of a channel, numbered from 0, in a round whose event carries no currents (log 4). -/
opaque Config.unseenCurrent : Nat → Nat → Nat

/-- The flow estimate, the power estimate and the head-limited flag that a curve of no points gives at a head, which only
a loaded image can bring (R22 to R24, log 42). -/
opaque Config.emptyCurve : Nat → Nat × Nat × Bool

/-- The quotient of the inflow (R65) where n × E is 0, by its numerator (log 42). -/
opaque Config.inflowByZero : Int → Int

/-- The quotient of the demand (R67) where τ is 0, by its numerator (log 42). -/
opaque Config.demandByZero : Int → Int

/-- What a clamp into the level window gives (R135) where the window is so narrow that the least value is above the
greatest, by the least, the greatest and the value clamped (log 42). -/
opaque Config.emptyRange : Int → Int → Int → Int

end Sys2Proof
end

