-- ==== Sys2Proof/Decode.lean ====
section
/-! DEFINITION. The table of the block gives no row any bits, so no word spells a command (log 25). Here
stand also the request kinds and body lengths of section 11.7, which the link controller's tests (R179)
and the well-formedness of two link commands read. -/

namespace Sys2Proof

/-- The command that the low `nbits` bits of `w` spell by the bits of `spec/opcode_table.json`: none, since
no row gives bits (log 25). -/
def decodeTableWord (_nbits _w : Nat) : Option Instr := none

/-- The greatest body length of a telegram (R171, R177). -/
def maxBodyLength : Nat := 240

/-- The kind byte of a request (section 11.7). -/
def RequestKind.byte : RequestKind → Byte
  | .askStation => 0x01#8
  | .askGauges => 0x02#8
  | .askUnit => 0x03#8
  | .askPlan => 0x04#8
  | .askConfig => 0x05#8
  | .askCounters => 0x06#8
  | .takeEvents => 0x07#8
  | .setTarget => 0x10#8
  | .setBudget => 0x11#8
  | .setClock => 0x12#8
  | .setMode => 0x13#8
  | .setAlerts => 0x14#8
  | .clearAlerts => 0x15#8
  | .unitOrder => 0x20#8
  | .sluiceOrder => 0x21#8
  | .rakeOrder => 0x22#8
  | .planAdd => 0x23#8
  | .planClear => 0x24#8
  | .writeConfig => 0x30#8
  | .saveConfig => 0x31#8
  | .zeroCounters => 0x32#8
  | .restartPart => 0x33#8

/-- Every request kind, in the table's order. -/
def RequestKind.all : List RequestKind :=
  [.askStation, .askGauges, .askUnit, .askPlan, .askConfig, .askCounters, .takeEvents,
   .setTarget, .setBudget, .setClock, .setMode, .setAlerts, .clearAlerts,
   .unitOrder, .sluiceOrder, .rakeOrder, .planAdd, .planClear,
   .writeConfig, .saveConfig, .zeroCounters, .restartPart]

/-- The request kind a kind byte names, if it names one (R179). -/
def RequestKind.ofByte (b : Byte) : Option RequestKind :=
  RequestKind.all.find? fun k => k.byte == b

/-- Whether a body of `n` bytes fits the kind: equality for a fixed body, and at least the two selector bytes
for WRITE_CONFIG (R179, section 11.7). -/
def RequestKind.bodyFits (k : RequestKind) (n : Nat) : Bool :=
  match k with
  | .askStation | .askGauges | .askCounters | .planClear | .saveConfig | .zeroCounters | .restartPart =>
    n == 0
  | .askUnit | .askPlan | .takeEvents | .setMode | .setAlerts | .clearAlerts | .sluiceOrder | .rakeOrder =>
    n == 1
  | .askConfig | .setBudget | .unitOrder => n == 2
  | .setTarget | .setClock => n == 4
  | .planAdd => n == 12
  | .writeConfig => decide (2 ≤ n)

end Sys2Proof
end

