-- ==== Sys2Proof/WellFormed.lean ====
section
/-! DEFINITION. Which commands can occur: the checks on a command's own operands. `exec` gives a meaning to
every command; these checks say which of them the hardware can meet. -/

namespace Sys2Proof

/-- A kind byte that is no request kind (R179), as UNKNOWN_KIND requires. -/
def kindUnknown (kind : Byte) : Bool := (RequestKind.ofByte kind).isNone

/-- A request kind and a body length that does not fit it (R179), as REFUSAL_LENGTH requires; the telegram is
complete only with a length of at most 240 (R178). -/
def lengthUnfit (kind length : Byte) : Bool :=
  match RequestKind.ofByte kind with
  | some k => !k.bodyFits length.toNat && decide (length.toNat ≤ maxBodyLength)
  | none => false

/-- A WRITE_CONFIG record that fits a telegram behind its two selector bytes (R171). -/
def recordFits (record : List Byte) : Bool := decide (record.length + 2 ≤ maxBodyLength)

/-- The well-formed commands. -/
def Instr.wellFormed : Instr → Bool
  | .unknownKind _ kind => kindUnknown kind
  | .refusalLength _ kind length => lengthUnfit kind length
  | .oversize length => decide (maxBodyLength < length.toNat)
  | .writeConfigLink _ _ record => recordFits record
  | .writeConfigStation _ _ record => recordFits record
  | .writeConfigGauge _ _ record => recordFits record
  | .writeConfigUnit _ _ record => recordFits record
  | .powerOnReset _ | .samplingRound _ | .runAsserted _ | .runReleased _ | .tripAsserted _
  | .tripReleased _ | .primedAsserted _ | .primedReleased _ | .primeTimerExpiry _ _
  | .startTimerExpiry _ _ | .stopTimerExpiry _ | .restTimerExpiry _ _ | .minRunTimerExpiry _
  | .runLossTimerExpiry _ | .dwellTimerExpiry _ | .enable _ _ | .disable _ _ | .handStart _ _ _
  | .handStop _ _ | .unitAuto _ _ | .unitClear _ _ | .askUnit _ _ | .dispatchEvaluation _
  | .staggerTimerExpiry | .shedDelayTimerExpiry | .curtailAsserted | .curtailReleased
  | .setBudget _ _ | .historyTimerExpiry | .accountingSecond | .floatHighAsserted _
  | .floatHighReleased _ | .floatLowAsserted _ | .floatLowReleased _ | .sluiceAtOpenAsserted
  | .sluiceAtOpenReleased | .sluiceAtClosedAsserted | .sluiceAtClosedReleased | .travelTimerExpiry
  | .sluiceAuto _ | .sluiceKeepClosed _ | .sluiceClear _ | .rakeDoneAsserted | .rakeDoneReleased
  | .rakingTimerExpiry | .intervalTimerExpiry | .pauseTimerExpiry | .rakeStart _ | .rakeClear _
  | .setTarget _ _ _ | .planAdd _ _ | .planClear _ | .askPlan _ _ | .supervisionTimerExpiry
  | .setModeHold _ | .setModeRelease _ | .mainsOkReleased _ | .mainsOkAsserted _
  | .settleTimerExpiry _ | .restartPart _ | .askStation _ | .askGauges _ _ | .askCounters _
  | .setClock _ _ | .zeroCounters _ | .takeEvents _ _ | .setAlerts _ _ | .clearAlerts _ _
  | .askConfig _ _ _ | .saveConfig _ | .saveAttemptCompletion _ | .checkFailure | .overrun
  | .gapTimerExpiry | .replyEnd _ | .byteReceived _ _ => true

end Sys2Proof
end

