-- ==== Sys2Proof/Machine/State.lean ====
section
/-! DEFINITION. The state of the part as plain data: one structure for each block of the manual, the working
copy of the configuration, and the queue of waiting commands; the reasons a step can stop; the state right
after a power-on reset. -/

namespace Sys2Proof.Machine

/-! ### Timers -/

/-- A running timer: the duration it was started with, in seconds, and the uptime at its start. A stopped
timer is `none`. -/
structure Timer where
  duration : Nat
  startedAt : Word32
  deriving DecidableEq, Repr

/-! ### Configuration (chapters 1, 3, 11, 13) -/

/-- The baud rates of the link record (section 11.2); a loaded image may hold a code that names none (log 13). -/
inductive BaudRate where
  | b9600 | b19200 | b38400 | b57600 | b115200
  | unnamed (code : Byte)
  deriving DecidableEq, Repr

/-- The gap limits of the link record (section 11.2); a loaded image may hold a code that names none (log 13). -/
inductive GapLimit where
  | ms5 | ms10 | ms20 | ms50
  | unnamed (code : Byte)
  deriving DecidableEq, Repr

/-- The link record (section 11.2). -/
structure LinkSettings where
  baud : BaudRate
  gapLimit : GapLimit
  deriving DecidableEq, Repr

/-- The ranking modes (R86, R87); a loaded image may hold a code that names none (log 13). -/
inductive RankingMode where
  | rotate | fixed
  | unnamed (code : Byte)
  deriving DecidableEq, Repr

/-- The station record (R197, R198). The fixed order is held in its unit numbers: a write takes only those of R94,
a loaded image may hold any (log 13). -/
structure StationRecord where
  stopLevel : Int
  highLevel : Int
  area : Nat
  drawdown : Nat
  interval : Nat
  window : Nat
  evalInterval : Nat
  hysteresis : Nat
  rankingMode : RankingMode
  fixedOrder : List Byte
  stagger : Nat
  stationBudget : Nat
  curtailedBudget : Nat
  shedDelay : Nat
  settleTime : Nat
  supervisionTimeout : Nat
  holdLimit : Nat
  agreementLimit : Nat
  fallbackHead : Nat
  openMargin : Nat
  closeMargin : Nat
  travelTimeout : Nat
  cleanThreshold : Nat
  restrictThreshold : Nat
  tripThreshold : Nat
  rakeTimeout : Nat
  rakeInterval : Nat
  fallbackTarget : Int
  fallbackBand : Nat
  deriving DecidableEq, Repr

/-- A gauge record (section 1.1). -/
structure GaugeRecord where
  fitted : Bool
  zero : Int
  span : Nat
  deriving DecidableEq, Repr

/-- The outlets of a unit (section 3.1); a loaded image may hold a code that names none (log 13). -/
inductive Outlet where
  | siphon | flap
  | unnamed (code : Byte)
  deriving DecidableEq, Repr

/-- A point of a pump curve (section 2.1). -/
structure CurvePoint where
  head : Nat
  flow : Nat
  power : Nat
  deriving DecidableEq, Repr

/-- A unit record (section 3.1). -/
structure UnitRecord where
  enabled : Bool
  outlet : Outlet
  loss : Nat
  curve : List CurvePoint
  minRun : Nat
  minRest : Nat
  maxStarts : Nat
  primeTimeout : Nat
  startTimeout : Nat
  stopTimeout : Nat
  runLossDelay : Nat
  headLimitDwell : Nat
  startRetries : Nat
  deriving DecidableEq, Repr

/-- The working copy (R197): link record, station record, gauge records, unit records and the eight class
enables (bit k for the class of code k, R194). -/
structure WorkingCopy where
  link : LinkSettings
  station : StationRecord
  gauges : Four GaugeRecord
  units : Six UnitRecord
  enables : Byte
  deriving DecidableEq, Repr

/-! ### Gauge unit (chapter 1) -/

/-- The reasons of an INVALID channel (R1). -/
inductive InvalidReason where
  | wireBreak | overrange
  deriving DecidableEq, Repr

/-- The channel states (R1). -/
inductive ChannelState where
  | notFitted
  | init
  | valid
  | invalid (reason : InvalidReason)
  deriving DecidableEq, Repr

/-- A channel: its buffer, oldest sample first, and its state. -/
structure Channel where
  buffer : List Nat
  state : ChannelState
  deriving DecidableEq, Repr

/-- The inner qualities (R5). -/
inductive InnerQuality where
  | init | both | disagree | single | held | lost
  deriving DecidableEq, Repr

/-- The outer qualities (R8). -/
inductive OuterQuality where
  | init | ok | held | lost
  deriving DecidableEq, Repr

/-- The rack states (R10). -/
inductive RackState where
  | clear | restrict | trip
  deriving DecidableEq, Repr

/-- The sampling modes (R14). -/
inductive SamplingMode where
  | fast | slow
  deriving DecidableEq, Repr

/-- A held level and the uptime at which it was last derived (R5, R8). -/
structure HeldLevel where
  level : Int
  time : Word32
  deriving DecidableEq, Repr

/-- The snapshot (R13). -/
structure Snapshot where
  time : Word32
  inner : Option Int
  innerQuality : InnerQuality
  outer : Option Int
  outerQuality : OuterQuality
  screen : Option Int
  rackLoss : Option Int
  rack : RackState
  floatHigh : Bool
  floatLow : Bool
  mode : SamplingMode
  deriving DecidableEq, Repr

/-- The gauge unit. `floatHigh` and `floatLow` are the filtered lines, `effHigh` and `effLow` the effective
pair (R12). -/
structure GaugeUnit where
  channels : Four Channel
  heldInner : Option HeldLevel
  heldOuter : Option HeldLevel
  innerQuality : InnerQuality
  outerQuality : OuterQuality
  rack : RackState
  floatHigh : Bool
  floatLow : Bool
  effHigh : Bool
  effLow : Bool
  mode : SamplingMode
  roundTimer : Option Timer
  snapshot : Option Snapshot
  deriving DecidableEq, Repr

/-! ### Curve table (chapter 2) -/

/-- The head bases (section 2.2). -/
inductive HeadBasis where
  | outerOk | outerHeld | fallback
  deriving DecidableEq, Repr

/-- The derived values of one unit (R26). -/
structure Derived where
  head : Nat
  basis : HeadBasis
  flow : Nat
  power : Nat
  limited : Bool
  deriving DecidableEq, Repr

/-! ### Unit controllers (chapter 3) -/

/-- The unit states (R30). -/
inductive UnitState where
  | offline | idle | queued | priming | starting | running | stopping | resting | tripped
  deriving DecidableEq, Repr

/-- The authorities (R53). -/
inductive Authority where
  | auto | hand
  deriving DecidableEq, Repr

/-- The fault codes of a unit (R56). -/
inductive FaultCode where
  | primeFail | startFail | stopFail | motorTrip | lostRun | uncommandedRun
  deriving DecidableEq, Repr

/-- The origins of a stop order (section 3.4). -/
inductive StopOrigin where
  | dispatch | rack | hand | shed | lowWater | headLimit | mains | reset
  deriving DecidableEq, Repr

/-- A unit controller; its unit record stands in the working copy. -/
structure PumpUnit where
  state : UnitState
  authority : Authority
  fault : Option FaultCode
  retriesLeft : Nat
  retryPending : Bool
  stopOrigin : Option StopOrigin
  minRunElapsed : Bool
  lastGrant : Option Word32
  history : List Word32
  limitReported : Bool
  reserved : Nat
  primeTimer : Option Timer
  startTimer : Option Timer
  stopTimer : Option Timer
  minRunTimer : Option Timer
  restTimer : Option Timer
  runLossTimer : Option Timer
  dwellTimer : Option Timer
  startOut : Bool
  primeOut : Bool
  airvalveOut : Bool
  run : Bool
  trip : Bool
  primed : Bool
  deriving DecidableEq, Repr

/-! ### Demand estimator (chapter 4) -/

/-- The estimator states (R64). -/
inductive EstimatorState where
  | warming | active | held
  deriving DecidableEq, Repr

/-- A history record (section 4.2). -/
structure HistoryRecord where
  uptime : Word32
  level : Option Int
  volume : Nat
  closedThroughout : Bool
  deriving DecidableEq, Repr

/-- The demand estimator. -/
structure Estimator where
  intervalVolume : Nat
  closedThroughout : Bool
  timer : Option Timer
  ring : List HistoryRecord
  state : EstimatorState
  inflow : Nat
  deriving DecidableEq, Repr

/-! ### Dispatch controller (chapter 5) -/

/-- The dispatch controller. The stop order of the ranking in force is `startOrder` reversed (R86, R87). -/
structure Dispatcher where
  timer : Option Timer
  hold : Bool
  startOrder : List UnitNo
  demand : Nat
  deriving DecidableEq, Repr

/-! ### Start arbiter (chapter 6) -/

/-- The origins of a queue entry (section 6.1). -/
inductive QueueOrigin where
  | dispatch | hand | retry | restart
  deriving DecidableEq, Repr

/-- A start queue entry. -/
structure QueueEntry where
  unit : UnitNo
  origin : QueueOrigin
  queuedAt : Word32
  deriving DecidableEq, Repr

/-- The shed states (R112). -/
inductive ShedState where
  | normal | shedding
  deriving DecidableEq, Repr

/-- The start arbiter, with the filtered CURTAIL line it owns. -/
structure Arbiter where
  queue : List QueueEntry
  slot : Option UnitNo
  stagger : Option Timer
  committed : Nat
  effective : Nat
  shed : ShedState
  shedDelay : Option Timer
  curtail : Bool
  deriving DecidableEq, Repr

/-! ### Sluice controller and cleaner controller (chapter 7) -/

/-- The sluice states (R119). -/
inductive SluiceState where
  | closed | opening | opened | closing | fault
  deriving DecidableEq, Repr

/-- The sluice modes (R126). -/
inductive SluiceMode where
  | auto | keepClosed
  deriving DecidableEq, Repr

/-- The close causes, in the order of their codes (R122). -/
inductive CloseCause where
  | keepClosed | inhibit | innerAbsent | outerNotOk | drawdown | margin
  | order | mains | timeoutClear | reset | departure
  deriving DecidableEq, Repr

/-- The sluice controller with its two drive lines and two filtered limit lines. -/
structure Sluice where
  state : SluiceState
  mode : SluiceMode
  travel : Option Timer
  waiting : Bool
  cause : Option CloseCause
  driveOpen : Bool
  driveClose : Bool
  atOpen : Bool
  atClosed : Bool
  deriving DecidableEq, Repr

/-- The cleaner states (R129). -/
inductive CleanerState where
  | idle | raking | fault
  deriving DecidableEq, Repr

/-- The rake causes (section 7.2). -/
inductive RakeCause where
  | loss | interval | order
  deriving DecidableEq, Repr

/-- The cleaner controller with its RAKE line and the filtered RAKE_DONE line. -/
structure Cleaner where
  state : CleanerState
  cause : Option RakeCause
  raking : Option Timer
  interval : Option Timer
  pause : Option Timer
  rake : Bool
  done : Bool
  deriving DecidableEq, Repr

/-! ### Level plan (chapter 8) -/

/-- A plan entry as written (section 8.2). -/
structure PlanEntry where
  time : Word32
  target : Int
  band : Option Nat
  budget : Option Nat
  inhibit : Option Bool
  deriving DecidableEq, Repr

/-- The plan states (R138). -/
inductive PlanState where
  | empty | waiting
  deriving DecidableEq, Repr

/-- The level plan: the targets in force (target, band, budget override, sluice inhibit) and the plan. -/
structure LevelPlan where
  target : Int
  band : Nat
  budget : Option Nat
  inhibit : Bool
  entries : List PlanEntry
  planState : PlanState
  deriving DecidableEq, Repr

/-! ### Supervision controller (chapter 9) -/

/-- The control modes (section 9.1). -/
inductive ControlMode where
  | supervised | held | autonomous
  deriving DecidableEq, Repr

/-- The mains states (section 9.2). -/
inductive MainsState where
  | ok | lost | settling
  deriving DecidableEq, Repr

/-- The supervision controller with the filtered MAINS_OK line it owns. -/
structure Supervision where
  mode : ControlMode
  timer : Option Timer
  autonomousSince : Option Word32
  mains : MainsState
  settle : Option Timer
  lostAt : Option Word32
  restartSet : List UnitNo
  mainsOk : Bool
  deriving DecidableEq, Repr

/-! ### Accounting unit (chapter 10) -/

/-- The totals of the accounting unit. -/
structure Totals where
  runSeconds : Six Nat
  volumes : Six Nat
  stationVolume : Word48
  startTotals : Six Nat
  deriving DecidableEq, Repr

/-- The counter image (R167). -/
structure CounterImage where
  clock : Word32
  uptime : Word32
  totals : Totals
  deriving DecidableEq, Repr

/-- The accounting unit. -/
structure Accounting where
  clock : Word32
  uptime : Word32
  timer : Option Timer
  totals : Totals
  image : CounterImage
  deriving DecidableEq, Repr

/-! ### Link controller (chapter 11) -/

/-- The receive states (section 11.3). -/
inductive RxState where
  | hunting | inTelegram | replying
  deriving DecidableEq, Repr

/-- The link error flags (R183). -/
structure LinkFlags where
  check : Bool
  gap : Bool
  oversize : Bool
  overrun : Bool
  deriving DecidableEq, Repr

/-- The after-reply actions (R182). -/
inductive AfterReply where
  | newSettings (l : LinkSettings)
  | newEnables (marks : Byte)
  | restart
  deriving DecidableEq, Repr

/-- The link controller. The gap timer is held as the limit, in milliseconds, it was last started with. -/
structure Link where
  rx : RxState
  discarding : Bool
  buffer : List Byte
  gap : Option Nat
  flags : LinkFlags
  settings : LinkSettings
  reply : List Byte
  after : Option AfterReply
  direction : Bool
  deriving DecidableEq, Repr

/-! ### Event queue (chapter 12) -/

/-- The event classes, in the order of their codes (R191). -/
inductive EventClass where
  | unit | level | power | sluice | screen | plan | mode | store
  deriving DecidableEq, Repr

/-- The event codes, class by class in the order of R191. -/
inductive EventCode where
  | unitRunning | unitStopped | primeFail | startFail | stopFail | motorTrip | lostRun
  | uncommandedRun | headLimitRemoved | headLimitStop | retryScheduled | startLimit | unitCleared
  | innerDisagree | innerSingle | innerHeld | innerLost | innerRestored | outerHeld | outerLost
  | outerRestored | stopLevel | floatHigh | floatLow | floatConflict | floatGaugeConflict
  | mainsLost | mainsBack | restartBegun | shedStop | curtailOn | curtailOff
  | sluiceOpened | sluiceClosed | sluiceFault
  | rackRestrict | rackTrip | rackClear | rakeDone | rakeFault
  | planApplied | planSkipped | planEmpty
  | powerOn | partRestart | autonomyEntered | supervisionResumed | holdOn | holdOff
  | storeSaved | storeFailed | storeInvalid
  deriving DecidableEq, Repr

/-- An event record; its class is that of its code (R191), unit `none` is unit 0. -/
structure Record where
  time : Word32
  code : EventCode
  unit : Option UnitNo
  gap : Bool
  value : Option Int
  deriving DecidableEq, Repr

/-- The event queue: records oldest first, class flags (bit k for the class of code k), the ALERT line. -/
structure EventQueue where
  records : List Record
  flags : Byte
  alert : Bool
  deriving DecidableEq, Repr

/-! ### Configuration store (chapter 13) -/

/-- The store states (R199). -/
inductive StoreState where
  | idle | saving
  deriving DecidableEq, Repr

/-- The last save results (R200). -/
inductive SaveResult where
  | none | ok | failed
  deriving DecidableEq, Repr

/-- The configuration store: the image as the bytes it holds (records, then check), and the save. -/
structure Store where
  image : List Byte
  state : StoreState
  saveCopy : Option WorkingCopy
  attempts : Nat
  lastResult : SaveResult
  configured : Bool
  deriving DecidableEq, Repr

/-! ### The part and the queue -/

/-- Everything the manual gives the part, and two fields of the model's own (log 31): `roundDue`, a trigger of
R15 taken within the event, and `freeCount`, which the free values are applied to. `fallbackInUse` is the fallback
head that the curve table forms heads with, until the snapshot that first uses a new one (R18, R28). -/
structure Part where
  gauge : GaugeUnit
  curves : Six Derived
  fallbackInUse : Nat
  units : Six PumpUnit
  estimator : Estimator
  dispatcher : Dispatcher
  arbiter : Arbiter
  sluice : Sluice
  cleaner : Cleaner
  plan : LevelPlan
  supervision : Supervision
  accounting : Accounting
  link : Link
  events : EventQueue
  store : Store
  config : WorkingCopy
  roundDue : Bool
  freeCount : Nat
  deriving DecidableEq, Repr

/-- The state of the machine: the part, and the commands that wait for it, first in, first out. -/
structure State where
  part : Part
  pending : List Instr
  deriving DecidableEq, Repr

/-- What stops the machine. The manual names nothing that stops the part: a refused request is a reply (R181),
a link fault a flag (R183), a pump, sluice or cleaner fault a state of its controller. So there is no fault. -/
inductive Fault where
  deriving DecidableEq, Repr

/-- Why a command is not run. -/
inductive Refusal where
  /-- Raised by an arm of `exec` that has no meaning yet, by the table's mnemonic. Safe: the model stops. -/
  | notModelled (mnemonic : String)
  deriving DecidableEq, Repr

/-- The outcome of one command. -/
abbrev Result := Host.Outcome State Fault Refusal

/-! ### Reset -/

/-- The same thing for each unit. -/
def Six.const {α : Type} (a : α) : Six α := ⟨a, a, a, a, a, a⟩

/-- Units in ascending number. -/
def UnitNo.all : List UnitNo := [.u1, .u2, .u3, .u4, .u5, .u6]

/-- The station record of the defaults: each field at the least value of its range, with the exceptions of
R197. -/
def StationRecord.default : StationRecord where
  stopLevel := -20000
  highLevel := -19800
  area := 100
  drawdown := 60
  interval := 30
  window := 2
  evalInterval := 10
  hysteresis := 0
  rankingMode := .rotate
  fixedOrder := [1#8, 2#8, 3#8, 4#8, 5#8, 6#8]
  stagger := 5
  stationBudget := 0
  curtailedBudget := 0
  shedDelay := 2
  settleTime := 5
  supervisionTimeout := 0
  holdLimit := 10
  agreementLimit := 10
  fallbackHead := 0
  openMargin := 50
  closeMargin := 20
  travelTimeout := 10
  cleanThreshold := 10
  restrictThreshold := 20
  tripThreshold := 30
  rakeTimeout := 10
  rakeInterval := 0
  fallbackTarget := -20000
  fallbackBand := 20

/-- A unit record of the defaults (R197). -/
def UnitRecord.default : UnitRecord where
  enabled := false
  outlet := .siphon
  loss := 0
  curve := [⟨0, 0, 0⟩, ⟨1, 0, 0⟩]
  minRun := 0
  minRest := 0
  maxStarts := 1
  primeTimeout := 10
  startTimeout := 2
  stopTimeout := 2
  runLossDelay := 1
  headLimitDwell := 0
  startRetries := 0

/-- The defaults (R197). -/
def WorkingCopy.default : WorkingCopy where
  link := ⟨.b19200, .ms20⟩
  station := StationRecord.default
  gauges := ⟨⟨true, -20000, 100⟩, ⟨false, -20000, 100⟩, ⟨true, -20000, 100⟩, ⟨false, -20000, 100⟩⟩
  units := Six.const UnitRecord.default
  enables := 0#8

/-- Every total at 0. -/
def Totals.zero : Totals := ⟨Six.const 0, Six.const 0, 0#48, Six.const 0⟩

/-- A unit controller right after `State.reset`: OFFLINE, with its lines released (R58). -/
def PumpUnit.atReset : PumpUnit where
  state := .offline
  authority := .auto
  fault := none
  retriesLeft := 0
  retryPending := false
  stopOrigin := none
  minRunElapsed := false
  lastGrant := none
  history := []
  limitReported := false
  reserved := 0
  primeTimer := none
  startTimer := none
  stopTimer := none
  minRunTimer := none
  restTimer := none
  runLossTimer := none
  dwellTimer := none
  startOut := false
  primeOut := false
  airvalveOut := false
  run := false
  trip := false
  primed := false

/-- The part right after a power-on reset with every field line released (log 1), no gauge current (log 2) and
an image that holds no valid check (log 3): the values of the reset rules R16, R28, R58, R71, R96, R118, R128,
R133, R146, R159, R170, R174, R196 and R200 for the defaults of R197. -/
def Part.reset : Part where
  gauge :=
    { channels := ⟨⟨[0], .init⟩, ⟨[], .notFitted⟩, ⟨[0], .init⟩, ⟨[], .notFitted⟩⟩
      heldInner := none
      heldOuter := none
      innerQuality := .init
      outerQuality := .init
      rack := .clear
      floatHigh := false
      floatLow := false
      effHigh := false
      effLow := false
      mode := .fast
      roundTimer := some ⟨1, 0#32⟩
      snapshot := some
        { time := 0#32, inner := none, innerQuality := .init, outer := none, outerQuality := .init,
          screen := none, rackLoss := none, rack := .clear, floatHigh := false, floatLow := false,
          mode := .fast } }
  curves := Six.const ⟨0, .fallback, 0, 0, false⟩
  fallbackInUse := 0
  units := Six.const PumpUnit.atReset
  estimator := ⟨0, false, some ⟨30, 0#32⟩, [], .warming, 0⟩
  dispatcher := ⟨some ⟨10, 0#32⟩, false, UnitNo.all, 0⟩
  arbiter := ⟨[], none, none, 0, 0, .normal, none, false⟩
  sluice := ⟨.closing, .auto, none, true, some .reset, false, false, false, false⟩
  cleaner := ⟨.idle, none, none, none, none, false, false⟩
  plan := ⟨-19980, 20, none, false, [], .empty⟩
  supervision := ⟨.supervised, none, none, .lost, none, none, [], false⟩
  accounting := ⟨0#32, 0#32, some ⟨1, 0#32⟩, Totals.zero, ⟨0#32, 0#32, Totals.zero⟩⟩
  link := ⟨.hunting, false, [], none, ⟨false, false, false, false⟩, ⟨.b19200, .ms20⟩, [], none, false⟩
  events :=
    { records := [⟨0#32, .powerOn, none, false, none⟩, ⟨0#32, .storeInvalid, none, false, none⟩]
      flags := 0xC0#8
      alert := false }
  store := ⟨[], .idle, none, 0, .none, false⟩
  config := WorkingCopy.default
  roundDue := false
  freeCount := 0

/-- The machine right after reset: `Part.reset`, no command waiting. -/
def State.reset : State := ⟨Part.reset, []⟩

end Sys2Proof.Machine
end

