-- ==== Sys2Proof/Machine/Flags.lean ====
section
/-! DEFINITION. The flags: class flags, class enables and ALERT (chapter 12), link error flags (chapter 11);
and the class and number of every event code (R191). -/

namespace Sys2Proof.Machine

/-- The code of a class (R189, R191). -/
def EventClass.code : EventClass → Nat
  | .unit => 0
  | .level => 1
  | .power => 2
  | .sluice => 3
  | .screen => 4
  | .plan => 5
  | .mode => 6
  | .store => 7

/-- The mark of a class in a byte of class marks: weight 2^k for the class of code k (R193). -/
def EventClass.mark (c : EventClass) : Byte := BitVec.ofNat 8 (2 ^ c.code)

/-- The class of a code (R191). -/
def EventCode.cls : EventCode → EventClass
  | .unitRunning | .unitStopped | .primeFail | .startFail | .stopFail | .motorTrip | .lostRun
  | .uncommandedRun | .headLimitRemoved | .headLimitStop | .retryScheduled | .startLimit
  | .unitCleared => .unit
  | .innerDisagree | .innerSingle | .innerHeld | .innerLost | .innerRestored | .outerHeld | .outerLost
  | .outerRestored | .stopLevel | .floatHigh | .floatLow | .floatConflict
  | .floatGaugeConflict => .level
  | .mainsLost | .mainsBack | .restartBegun | .shedStop | .curtailOn | .curtailOff => .power
  | .sluiceOpened | .sluiceClosed | .sluiceFault => .sluice
  | .rackRestrict | .rackTrip | .rackClear | .rakeDone | .rakeFault => .screen
  | .planApplied | .planSkipped | .planEmpty => .plan
  | .powerOn | .partRestart | .autonomyEntered | .supervisionResumed | .holdOn | .holdOff => .mode
  | .storeSaved | .storeFailed | .storeInvalid => .store

/-- The code within its class (R191). -/
def EventCode.number : EventCode → Nat
  | .unitRunning => 1 | .unitStopped => 2 | .primeFail => 3 | .startFail => 4 | .stopFail => 5
  | .motorTrip => 6 | .lostRun => 7 | .uncommandedRun => 8 | .headLimitRemoved => 9
  | .headLimitStop => 10 | .retryScheduled => 11 | .startLimit => 12 | .unitCleared => 13
  | .innerDisagree => 1 | .innerSingle => 2 | .innerHeld => 3 | .innerLost => 4 | .innerRestored => 5
  | .outerHeld => 6 | .outerLost => 7 | .outerRestored => 8 | .stopLevel => 9 | .floatHigh => 10
  | .floatLow => 11 | .floatConflict => 12 | .floatGaugeConflict => 13
  | .mainsLost => 1 | .mainsBack => 2 | .restartBegun => 3 | .shedStop => 4 | .curtailOn => 5
  | .curtailOff => 6
  | .sluiceOpened => 1 | .sluiceClosed => 2 | .sluiceFault => 3
  | .rackRestrict => 1 | .rackTrip => 2 | .rackClear => 3 | .rakeDone => 4 | .rakeFault => 5
  | .planApplied => 1 | .planSkipped => 2 | .planEmpty => 3
  | .powerOn => 1 | .partRestart => 2 | .autonomyEntered => 3 | .supervisionResumed => 4 | .holdOn => 5
  | .holdOff => 6
  | .storeSaved => 1 | .storeFailed => 2 | .storeInvalid => 3

/-- ALERT: at least one class has both its flag set and its enable on (R195). -/
def alertOf (flags enables : Byte) : Bool := (flags &&& enables) != 0#8

/-- The weight of a mark that is set. -/
def weight (b : Bool) (w : Nat) : Nat := if b then w else 0

/-- The link error flags as ASK_STATION reports them: weight 1 CHECK, 2 GAP, 4 OVERSIZE, 8 OVERRUN (R188). -/
def LinkFlags.toNat (f : LinkFlags) : Nat :=
  weight f.check 1 + weight f.gap 2 + weight f.oversize 4 + weight f.overrun 8

/-- All four link error flags clear (R183). -/
def LinkFlags.none : LinkFlags := ⟨false, false, false, false⟩

end Sys2Proof.Machine
end

