-- ==== Sys2Proof/Machine/Ops.lean ====
section
/-! DEFINITION. The shared operations: access by unit and channel, the manual's roundings and clamps, timers
and uptime differences, the codes of states, the append of an event record, and the commands' common form. -/

namespace Sys2Proof

/-! ### Units and channels -/

/-- The thing of unit `u`. -/
def Six.get {α : Type} (x : Six α) : UnitNo → α
  | .u1 => x.u1
  | .u2 => x.u2
  | .u3 => x.u3
  | .u4 => x.u4
  | .u5 => x.u5
  | .u6 => x.u6

/-- `x` with the thing of unit `u` replaced. -/
def Six.set {α : Type} (x : Six α) (u : UnitNo) (a : α) : Six α :=
  match u with
  | .u1 => { x with u1 := a }
  | .u2 => { x with u2 := a }
  | .u3 => { x with u3 := a }
  | .u4 => { x with u4 := a }
  | .u5 => { x with u5 := a }
  | .u6 => { x with u6 := a }

/-- The six things `f` gives. -/
def Six.ofFn {α : Type} (f : UnitNo → α) : Six α := ⟨f .u1, f .u2, f .u3, f .u4, f .u5, f .u6⟩

/-- The sum over the six units. -/
def Six.sum (x : Six Nat) : Nat := x.u1 + x.u2 + x.u3 + x.u4 + x.u5 + x.u6

/-- The thing of a channel. -/
def Four.get {α : Type} (x : Four α) : ChannelName → α
  | .ga => x.ga
  | .gb => x.gb
  | .go => x.go
  | .gs => x.gs

/-- `x` with the thing of a channel replaced. -/
def Four.set {α : Type} (x : Four α) (c : ChannelName) (a : α) : Four α :=
  match c with
  | .ga => { x with ga := a }
  | .gb => { x with gb := a }
  | .go => { x with go := a }
  | .gs => { x with gs := a }

/-- The unit's number, 1 to 6. -/
def UnitNo.number : UnitNo → Nat
  | .u1 => 1
  | .u2 => 2
  | .u3 => 3
  | .u4 => 4
  | .u5 => 5
  | .u6 => 6

/-- The unit a number names; none outside 1 to 6. -/
def UnitNo.ofNumber : Nat → Option UnitNo
  | 1 => some .u1
  | 2 => some .u2
  | 3 => some .u3
  | 4 => some .u4
  | 5 => some .u5
  | 6 => some .u6
  | _ => none

/-- The unit field of a record or an answer: 0 for none. -/
def unitField : Option UnitNo → Nat
  | some u => u.number
  | none => 0

end Sys2Proof

namespace Sys2Proof.Machine

/-! ### Arithmetic (00_scope.md, "Numbers and arithmetic") -/

/-- Clamp a natural number into a range. -/
def clampNat (lo hi n : Nat) : Nat := max lo (min hi n)

/-- Clamp an integer into a range. -/
def clampInt (lo hi n : Int) : Int := max lo (min hi n)

/-- `n / d` rounded to nearest, halves away from zero, for a positive `d`. -/
def roundHalfAway (n d : Int) : Int :=
  if 0 ≤ n then (2 * n + d) / (2 * d) else -((2 * (-n) + d) / (2 * d))

/-- `n / d` rounded toward zero. -/
def quotToZero (n d : Int) : Int := Int.tdiv n d

/-- `n / d` rounded toward zero, and `free n` where `d` is 0. -/
def quotOrFree (free : Int → Int) (n d : Int) : Int := if d = 0 then free n else quotToZero n d

/-- Clamp an integer into a range that settings give, free where they leave it empty (R135, log 42). -/
def clampRange (lo hi n : Int) : Int := if hi < lo then Config.emptyRange lo hi n else clampInt lo hi n

/-- Insert `x` before the first element that `x` may stand before. -/
def insertBy {α : Type} (le : α → α → Bool) (x : α) : List α → List α
  | [] => [x]
  | y :: ys => if le x y then x :: y :: ys else y :: insertBy le x ys

/-- A list put in order by `le`; equal elements keep their order. -/
def sortBy {α : Type} (le : α → α → Bool) : List α → List α
  | [] => []
  | x :: xs => insertBy le x (sortBy le xs)

/-! ### Time (R163) -/

/-- The seconds from `earlier` to `now`, modulo 2^32 (R163). -/
def secondsSince (now earlier : Word32) : Nat := (now - earlier).toNat

/-- A timer started now with `seconds`. -/
def Part.startTimer (p : Part) (seconds : Nat) : Option Timer :=
  some ⟨seconds, p.accounting.uptime⟩

/-- A timer started now, or stopped where the duration 0 means "never" or "off" (R131, R147). -/
def Part.startTimerUnlessZero (p : Part) (seconds : Nat) : Option Timer :=
  if seconds = 0 then none else p.startTimer seconds

/-- The seconds left on a running timer, rounded up (R185). With `k` accounting seconds since the start the
time left lies above `duration − k − 1` and below `duration − k + 1`, so rounded up it is `duration − k` or one
more; which of the two, the free value `Config.phaseShort` says (log 8). A running timer has time left. -/
def secondsLeft (now : Word32) (free : Nat) (t : Timer) : Nat :=
  max 1 (min t.duration
    (t.duration - secondsSince now t.startedAt + weight (Config.phaseShort free) 1))

/-! ### Codes -/

/-- The unit state codes (R30). -/
def UnitState.code : UnitState → Nat
  | .offline => 0
  | .idle => 1
  | .queued => 2
  | .priming => 3
  | .starting => 4
  | .running => 5
  | .stopping => 6
  | .resting => 7
  | .tripped => 8

/-- The fault codes (R56). -/
def FaultCode.code : FaultCode → Nat
  | .primeFail => 1
  | .startFail => 2
  | .stopFail => 3
  | .motorTrip => 4
  | .lostRun => 5
  | .uncommandedRun => 6

/-- The stop origin codes (section 3.4). -/
def StopOrigin.code : StopOrigin → Nat
  | .dispatch => 1
  | .rack => 2
  | .hand => 3
  | .shed => 4
  | .lowWater => 5
  | .headLimit => 6
  | .mains => 7
  | .reset => 8

/-- The close cause codes (R122). -/
def CloseCause.code : CloseCause → Nat
  | .keepClosed => 1
  | .inhibit => 2
  | .innerAbsent => 3
  | .outerNotOk => 4
  | .drawdown => 5
  | .margin => 6
  | .order => 7
  | .mains => 8
  | .timeoutClear => 9
  | .reset => 10
  | .departure => 11

/-- The rake cause codes (section 7.2). -/
def RakeCause.code : RakeCause → Nat
  | .loss => 1
  | .interval => 2
  | .order => 3

/-- The control mode codes (section 9.1). -/
def ControlMode.code : ControlMode → Nat
  | .supervised => 0
  | .held => 1
  | .autonomous => 2

/-! ### Event records (R190) -/

/-- Whether a value lies in the range of an event value (chapter 12). -/
def valueFits (v : Int) : Bool := decide (-2147483648 ≤ v) && decide (v ≤ 2147483647)

/-- The value a record shows: `v`, or a free value where the range cannot hold `v` (log 10). -/
def recordValue (free : Nat) (v : Int) : Int :=
  if valueFits v then v else (Config.outOfRangeValue free).toInt

/-- The queue after an append (R190): at 48 records the oldest is discarded and the gap mark set on the record
that is then oldest. -/
def appendRecord (rs : List Record) (r : Record) : List Record :=
  if rs.length < 48 then rs ++ [r]
  else
    match rs.tail with
    | [] => [r]
    | x :: xs => { x with gap := true } :: xs ++ [r]

/-- Whether the optional value uses a free value (log 10). -/
def usesFree : Option Int → Nat
  | some v => if valueFits v then 0 else 1
  | none => 0

/-- Append a record with the station clock as its time; its class flag is set and ALERT brought up to date
(R190, R193, R195). -/
def Part.record (p : Part) (code : EventCode) (unit : Option UnitNo) (value : Option Int) : Part :=
  { p with
    events :=
      { records := appendRecord p.events.records
          ⟨p.accounting.clock, code, unit, false, value.map (recordValue p.freeCount)⟩
        flags := p.events.flags ||| code.cls.mark
        alert := alertOf (p.events.flags ||| code.cls.mark) p.config.enables }
    freeCount := p.freeCount + usesFree value }

/-! ### Commands -/

/-- The outcome of a command that changes the part by `f` and leaves the queue alone. -/
def State.act (s : State) (f : Part → Part) : Result := .next { s with part := f s.part }

/-- The unit controller of unit `u`. -/
def Part.unit (p : Part) (u : UnitNo) : PumpUnit := p.units.get u

/-- The part with unit controller `u` changed by `f`. -/
def Part.modUnit (p : Part) (u : UnitNo) (f : PumpUnit → PumpUnit) : Part :=
  { p with units := p.units.set u (f (p.units.get u)) }

/-- The unit record of unit `u` in the working copy. -/
def Part.unitRecord (p : Part) (u : UnitNo) : UnitRecord := p.config.units.get u

end Sys2Proof.Machine
end

