-- ==== Sys2Proof/Machine/Operands.lean ====
section
/-! DEFINITION. The operand forms of the link: numbers as bytes (R185), the check (R172), telegrams (R171), the
record layouts of R189 and R198, and the stored image (R197). -/

namespace Sys2Proof.Machine

/-! ### Numbers (R185, R198) -/

/-- `k` bytes of `n`, most significant first. -/
def beBytes : Nat → Nat → List Byte
  | 0, _ => []
  | k + 1, n => BitVec.ofNat 8 (n / 256 ^ k) :: beBytes k n

/-- `k` bytes of an integer in two's complement, most significant first. -/
def beInt (k : Nat) (z : Int) : List Byte := beBytes k (z % (256 ^ k : Nat)).toNat

/-- The number that bytes spell, most significant first. -/
def ofBytes (bs : List Byte) : Nat := bs.foldl (fun n b => 256 * n + b.toNat) 0

/-- The number in the `size` bytes from `off`. -/
def fieldAt (bs : List Byte) (off size : Nat) : Nat := ofBytes ((bs.drop off).take size)

/-- A two-byte number read as two's complement. -/
def signed16 (n : Nat) : Int := if n < 32768 then n else (n : Int) - 65536

/-- The signed two-byte number at `off`. -/
def signedAt (bs : List Byte) (off : Nat) : Int := signed16 (fieldAt bs off 2)

/-- A mark or a line level: 1 for yes or asserted (R185). -/
def markByte (b : Bool) : Byte := if b then 1#8 else 0#8

/-- A code in one byte. -/
def codeByte (n : Nat) : Byte := BitVec.ofNat 8 n

/-- A level in two bytes, −32,768 when absent (R185). -/
def levelBytes (o : Option Int) : List Byte := beInt 2 (o.getD (-32768))

/-- An unsigned two-byte field, 65,535 when absent (R185). -/
def word16Bytes (o : Option Nat) : List Byte := beBytes 2 (o.getD 65535)

/-- A count of seconds in four bytes, 4,294,967,295 when absent (R185). -/
def secondsBytes (o : Option Nat) : List Byte := beBytes 4 (o.getD 4294967295)

/-! ### The check (R172) -/

/-- One shift of the check register. -/
def crcShift (r : Word16) : Word16 := if r.msb then (r <<< 1) ^^^ 0x1021#16 else r <<< 1

/-- One covered byte: combined into the high half, then eight shifts. -/
def crcByte (r : Word16) (b : Byte) : Word16 :=
  crcShift (crcShift (crcShift (crcShift (crcShift (crcShift (crcShift (crcShift
    (r ^^^ (b.setWidth 16 <<< 8)))))))))

/-- The check of the covered bytes. -/
def crc16 (bs : List Byte) : Word16 := bs.foldl crcByte 0xFFFF#16

/-- The two check bytes, high byte first (R171). -/
def crcBytes (bs : List Byte) : List Byte := beBytes 2 (crc16 bs).toNat

/-! ### Telegrams (R171) -/

/-- The marker. -/
def marker : Byte := 0x5A#8

/-- The bytes a check covers: length, kind, tag and body. -/
def coveredBytes (kind tag : Byte) (body : List Byte) : List Byte :=
  codeByte body.length :: kind :: tag :: body

/-- A telegram. -/
def telegram (kind tag : Byte) (body : List Byte) : List Byte :=
  marker :: (coveredBytes kind tag body ++ crcBytes (coveredBytes kind tag body))

/-- The refusal reasons (R181). -/
inductive Reason where
  | kind | length | range | order | full | state | limit | busy | notConfigured
  deriving DecidableEq, Repr

/-- The reason codes (R181). -/
def Reason.code : Reason → Nat
  | .kind => 1
  | .length => 2
  | .range => 3
  | .order => 4
  | .full => 5
  | .state => 6
  | .limit => 7
  | .busy => 8
  | .notConfigured => 9

/-- What the block that owns a request returns (R180). -/
inductive Response where
  | answer (body : List Byte)
  | refusal (reason : Reason)
  deriving DecidableEq, Repr

/-- The reply telegram: an answer with kind plus 0x80 (R171), or a refusal (R181). -/
def replyTelegram (kind tag : Byte) : Response → List Byte
  | .answer body => telegram (kind + 0x80#8) tag body
  | .refusal reason => telegram 0x7F#8 tag [kind, codeByte reason.code]

/-! ### Codes of the layouts (R185, sections 7.1, 11.2) -/

/-- Baud rate codes (section 11.2). -/
def BaudRate.code : BaudRate → Nat
  | .b9600 => 0
  | .b19200 => 1
  | .b38400 => 2
  | .b57600 => 3
  | .b115200 => 4
  | .unnamed c => c.toNat

/-- The baud rate of a code. -/
def BaudRate.ofCode : Nat → BaudRate
  | 0 => .b9600
  | 1 => .b19200
  | 2 => .b38400
  | 3 => .b57600
  | 4 => .b115200
  | n => .unnamed (codeByte n)

/-- The code names a baud rate (section 11.2). -/
def BaudRate.named : BaudRate → Bool
  | .unnamed _ => false
  | _ => true

/-- Gap limit codes (section 11.2). -/
def GapLimit.code : GapLimit → Nat
  | .ms5 => 0
  | .ms10 => 1
  | .ms20 => 2
  | .ms50 => 3
  | .unnamed c => c.toNat

/-- The gap limit of a code. -/
def GapLimit.ofCode : Nat → GapLimit
  | 0 => .ms5
  | 1 => .ms10
  | 2 => .ms20
  | 3 => .ms50
  | n => .unnamed (codeByte n)

/-- The code names a gap limit (section 11.2). -/
def GapLimit.named : GapLimit → Bool
  | .unnamed _ => false
  | _ => true

/-- The gap limit in milliseconds (section 11.2); free where its code names none (log 13). -/
def GapLimit.ms : GapLimit → Nat
  | .ms5 => 5
  | .ms10 => 10
  | .ms20 => 20
  | .ms50 => 50
  | .unnamed c => Config.unnamedGapLimit c

/-- Outlet codes (R198). -/
def Outlet.code : Outlet → Nat
  | .siphon => 0
  | .flap => 1
  | .unnamed c => c.toNat

/-- The outlet of a code. -/
def Outlet.ofCode : Nat → Outlet
  | 0 => .siphon
  | 1 => .flap
  | n => .unnamed (codeByte n)

/-- The code names an outlet (R29). -/
def Outlet.named : Outlet → Bool
  | .unnamed _ => false
  | _ => true

/-- The unit works as a SIPHON unit (R31, R32); free where its code names no outlet (log 13). -/
def Outlet.isSiphon : Outlet → Bool
  | .siphon => true
  | .flap => false
  | .unnamed c => Config.unnamedOutletSiphon c

/-- Ranking mode codes (R185, R198). -/
def RankingMode.code : RankingMode → Nat
  | .rotate => 0
  | .fixed => 1
  | .unnamed c => c.toNat

/-- The ranking mode of a code. -/
def RankingMode.ofCode : Nat → RankingMode
  | 0 => .rotate
  | 1 => .fixed
  | n => .unnamed (codeByte n)

/-- The code names a ranking mode (R94). -/
def RankingMode.named : RankingMode → Bool
  | .unnamed _ => false
  | _ => true

/-- Units are ranked as in ROTATE (R86); free where the code names no mode (log 13). -/
def RankingMode.isRotate : RankingMode → Bool
  | .rotate => true
  | .fixed => false
  | .unnamed c => Config.unnamedModeRotates c

/-- Authority codes (R185). -/
def Authority.code : Authority → Nat
  | .auto => 0
  | .hand => 1

/-- Inner quality codes (R185). -/
def InnerQuality.code : InnerQuality → Nat
  | .init => 0
  | .both => 1
  | .disagree => 2
  | .single => 3
  | .held => 4
  | .lost => 5

/-- Outer quality codes (R185). -/
def OuterQuality.code : OuterQuality → Nat
  | .init => 0
  | .ok => 1
  | .held => 2
  | .lost => 3

/-- Channel state codes (R185). -/
def ChannelState.code : ChannelState → Nat
  | .notFitted => 0
  | .init => 1
  | .valid => 2
  | .invalid _ => 3

/-- Invalid reason codes, 0 unless the channel is INVALID (R185, R186). -/
def ChannelState.reasonCode : ChannelState → Nat
  | .invalid .wireBreak => 1
  | .invalid .overrange => 2
  | .notFitted | .init | .valid => 0

/-- Rack state codes (R185). -/
def RackState.code : RackState → Nat
  | .clear => 0
  | .restrict => 1
  | .trip => 2

/-- Sampling mode codes (R185). -/
def SamplingMode.code : SamplingMode → Nat
  | .fast => 0
  | .slow => 1

/-- Head basis codes (R185). -/
def HeadBasis.code : HeadBasis → Nat
  | .outerOk => 0
  | .outerHeld => 1
  | .fallback => 2

/-- Queue entry origin codes (R185). -/
def QueueOrigin.code : QueueOrigin → Nat
  | .dispatch => 1
  | .hand => 2
  | .retry => 3
  | .restart => 4

/-- Estimator state codes (R185). -/
def EstimatorState.code : EstimatorState → Nat
  | .warming => 0
  | .active => 1
  | .held => 2

/-- Shed state codes (R185). -/
def ShedState.code : ShedState → Nat
  | .normal => 0
  | .shedding => 1

/-- Sluice state codes (R119). -/
def SluiceState.code : SluiceState → Nat
  | .closed => 0
  | .opening => 1
  | .opened => 2
  | .closing => 3
  | .fault => 4

/-- Sluice mode codes (R185). -/
def SluiceMode.code : SluiceMode → Nat
  | .auto => 0
  | .keepClosed => 1

/-- Cleaner state codes (R185). -/
def CleanerState.code : CleanerState → Nat
  | .idle => 0
  | .raking => 1
  | .fault => 2

/-- Mains state codes (section 9.2). -/
def MainsState.code : MainsState → Nat
  | .ok => 0
  | .lost => 1
  | .settling => 2

/-- Store state codes (R185). -/
def StoreState.code : StoreState → Nat
  | .idle => 0
  | .saving => 1

/-- Last save result codes (R185). -/
def SaveResult.code : SaveResult → Nat
  | .none => 0
  | .ok => 1
  | .failed => 2

/-- Plan state codes (R185). -/
def PlanState.code : PlanState → Nat
  | .empty => 0
  | .waiting => 1

/-! ### Event records and plan entries (R189) -/

/-- An event record in 12 bytes. -/
def encodeRecord (r : Record) : List Byte :=
  beBytes 4 r.time.toNat
    ++ [codeByte r.code.cls.code, codeByte r.code.number, codeByte (unitField r.unit),
        codeByte (weight r.gap 1 + weight r.value.isSome 2)]
    ++ beInt 4 (r.value.getD 0)

/-- A plan entry in 12 bytes: absent fields as 0 with their marks clear. -/
def encodePlanEntry (e : PlanEntry) : List Byte :=
  beBytes 4 e.time.toNat ++ beInt 2 e.target
    ++ [codeByte (weight e.band.isSome 1 + weight e.budget.isSome 2 + weight e.inhibit.isSome 4)]
    ++ beBytes 2 (e.band.getD 0) ++ beBytes 2 (e.budget.getD 0) ++ [markByte (e.inhibit.getD false)]

/-- The plan entry that PLAN_ADD's fields give: marks of weight 8 and above and the fields marked absent are
ignored. -/
def planEntryOf (w : PlanWords) : PlanEntry where
  time := w.time
  target := w.target.toInt
  band := if w.marks.getLsbD 0 then some w.band.toNat else none
  budget := if w.marks.getLsbD 1 then some w.budget.toNat else none
  inhibit := if w.marks.getLsbD 2 then some (w.inhibit != 0#8) else none

/-- The fields of a plan entry in the 12 bytes of a PLAN_ADD body. -/
def decodePlanWords (bs : List Byte) : PlanWords where
  time := BitVec.ofNat 32 (fieldAt bs 0 4)
  target := BitVec.ofNat 16 (fieldAt bs 4 2)
  marks := BitVec.ofNat 8 (fieldAt bs 6 1)
  band := BitVec.ofNat 16 (fieldAt bs 7 2)
  budget := BitVec.ofNat 16 (fieldAt bs 9 2)
  inhibit := BitVec.ofNat 8 (fieldAt bs 11 1)

/-- The `size` bytes from `off`. -/
def sliceAt (bs : List Byte) (off size : Nat) : List Byte := (bs.drop off).take size

/-! ### Configuration records (R198)

The readers take numbers and codes as written; clamps and refusals belong to the rules that own the fields. -/

/-- The link record, 2 bytes. -/
def encodeLink (r : LinkSettings) : List Byte := [codeByte r.baud.code, codeByte r.gapLimit.code]

/-- The link record that 2 bytes give. -/
def decodeLink (bs : List Byte) : LinkSettings :=
  ⟨BaudRate.ofCode (fieldAt bs 0 1), GapLimit.ofCode (fieldAt bs 1 1)⟩

/-- Both codes of a link record name something (R173). -/
def LinkSettings.named (r : LinkSettings) : Bool := r.baud.named && r.gapLimit.named

/-- A gauge record, 5 bytes. -/
def encodeGauge (r : GaugeRecord) : List Byte :=
  [markByte r.fitted] ++ beInt 2 r.zero ++ beBytes 2 r.span

/-- The gauge record that 5 bytes give. -/
def decodeGauge (bs : List Byte) : GaugeRecord :=
  ⟨fieldAt bs 0 1 != 0, signedAt bs 1, fieldAt bs 3 2⟩

/-- A curve point, 6 bytes. -/
def encodePoint (c : CurvePoint) : List Byte := beBytes 2 c.head ++ beBytes 2 c.flow ++ beBytes 2 c.power

/-- The curve point at `off`. -/
def pointAt (bs : List Byte) (off : Nat) : CurvePoint :=
  ⟨fieldAt bs off 2, fieldAt bs (off + 2) 2, fieldAt bs (off + 4) 2⟩

/-- `n` points of a curve in 6 bytes each, those beyond the list as 0. -/
def encodePoints : Nat → List CurvePoint → List Byte
  | 0, _ => []
  | n + 1, [] => [0#8, 0#8, 0#8, 0#8, 0#8, 0#8] ++ encodePoints n []
  | n + 1, c :: cs => encodePoint c ++ encodePoints n cs

/-- The first `n` points from `off`. -/
def pointsAt (bs : List Byte) : Nat → Nat → List CurvePoint
  | _, 0 => []
  | off, n + 1 => pointAt bs off :: pointsAt bs (off + 6) n

/-- The points from the seventh on that a point count of `6 + n` calls for: the record `bs` holds none of them (log
13). -/
def missingPoints (bs : List Byte) : Nat → List CurvePoint
  | 0 => []
  | n + 1 =>
    missingPoints bs n
      ++ [⟨Config.missingPointNumber bs (3 * n), Config.missingPointNumber bs (3 * n + 1),
          Config.missingPointNumber bs (3 * n + 2)⟩]

/-- The curve of a unit record: as many of its six points as the point count says. -/
def curveAt (bs : List Byte) (count : Nat) : List CurvePoint :=
  pointsAt bs 5 (min count 6) ++ missingPoints bs (count - 6)

/-- A unit record, 54 bytes. -/
def encodeUnit (r : UnitRecord) : List Byte :=
  [markByte r.enabled, codeByte r.outlet.code] ++ beBytes 2 r.loss ++ [codeByte r.curve.length]
    ++ encodePoints 6 r.curve ++ beBytes 2 r.minRun ++ beBytes 2 r.minRest ++ [codeByte r.maxStarts]
    ++ beBytes 2 r.primeTimeout
    ++ [codeByte r.startTimeout, codeByte r.stopTimeout, codeByte r.runLossDelay]
    ++ beBytes 2 r.headLimitDwell ++ [codeByte r.startRetries]

/-- The unit record that 54 bytes give. -/
def decodeUnit (bs : List Byte) : UnitRecord where
  enabled := fieldAt bs 0 1 != 0
  outlet := Outlet.ofCode (fieldAt bs 1 1)
  loss := fieldAt bs 2 2
  curve := curveAt bs (fieldAt bs 4 1)
  minRun := fieldAt bs 41 2
  minRest := fieldAt bs 43 2
  maxStarts := fieldAt bs 45 1
  primeTimeout := fieldAt bs 46 2
  startTimeout := fieldAt bs 48 1
  stopTimeout := fieldAt bs 49 1
  runLossDelay := fieldAt bs 50 1
  headLimitDwell := fieldAt bs 51 2
  startRetries := fieldAt bs 53 1

/-- Six unit numbers in a byte each; 0 beyond the list. -/
def encodeUnits : Nat → List UnitNo → List Byte
  | 0, _ => []
  | n + 1, [] => 0#8 :: encodeUnits n []
  | n + 1, u :: us => codeByte u.number :: encodeUnits n us

/-- The units that bytes number, in order; a byte that numbers no unit names no place (log 13). -/
def unitsNumbered (bs : List Byte) : List UnitNo := bs.filterMap fun b => UnitNo.ofNumber b.toNat

/-- The station record, 61 bytes. -/
def encodeStation (r : StationRecord) : List Byte :=
  beInt 2 r.stopLevel ++ beInt 2 r.highLevel ++ beBytes 4 r.area ++ beBytes 2 r.drawdown
    ++ beBytes 2 r.interval ++ [codeByte r.window, codeByte r.evalInterval] ++ beBytes 2 r.hysteresis
    ++ [codeByte r.rankingMode.code] ++ r.fixedOrder ++ [codeByte r.stagger]
    ++ beBytes 2 r.stationBudget ++ beBytes 2 r.curtailedBudget ++ [codeByte r.shedDelay]
    ++ beBytes 2 r.settleTime ++ beBytes 2 r.supervisionTimeout ++ beBytes 2 r.holdLimit
    ++ beBytes 2 r.agreementLimit ++ beBytes 2 r.fallbackHead ++ beBytes 2 r.openMargin
    ++ beBytes 2 r.closeMargin ++ beBytes 2 r.travelTimeout ++ beBytes 2 r.cleanThreshold
    ++ beBytes 2 r.restrictThreshold ++ beBytes 2 r.tripThreshold ++ beBytes 2 r.rakeTimeout
    ++ beBytes 4 r.rakeInterval ++ beInt 2 r.fallbackTarget ++ beBytes 2 r.fallbackBand

/-- The station record that 61 bytes give. -/
def decodeStation (bs : List Byte) : StationRecord where
  stopLevel := signedAt bs 0
  highLevel := signedAt bs 2
  area := fieldAt bs 4 4
  drawdown := fieldAt bs 8 2
  interval := fieldAt bs 10 2
  window := fieldAt bs 12 1
  evalInterval := fieldAt bs 13 1
  hysteresis := fieldAt bs 14 2
  rankingMode := RankingMode.ofCode (fieldAt bs 16 1)
  fixedOrder := sliceAt bs 17 6
  stagger := fieldAt bs 23 1
  stationBudget := fieldAt bs 24 2
  curtailedBudget := fieldAt bs 26 2
  shedDelay := fieldAt bs 28 1
  settleTime := fieldAt bs 29 2
  supervisionTimeout := fieldAt bs 31 2
  holdLimit := fieldAt bs 33 2
  agreementLimit := fieldAt bs 35 2
  fallbackHead := fieldAt bs 37 2
  openMargin := fieldAt bs 39 2
  closeMargin := fieldAt bs 41 2
  travelTimeout := fieldAt bs 43 2
  cleanThreshold := fieldAt bs 45 2
  restrictThreshold := fieldAt bs 47 2
  tripThreshold := fieldAt bs 49 2
  rakeTimeout := fieldAt bs 51 2
  rakeInterval := fieldAt bs 53 4
  fallbackTarget := signedAt bs 57
  fallbackBand := fieldAt bs 59 2

/-! ### The stored image (R197, log 12) -/

/-- The records of a configuration, in the order R197 lists them (log 12): 408 bytes. -/
def encodeConfig (c : WorkingCopy) : List Byte :=
  encodeLink c.link ++ encodeStation c.station
    ++ encodeGauge c.gauges.ga ++ encodeGauge c.gauges.gb ++ encodeGauge c.gauges.go
    ++ encodeGauge c.gauges.gs
    ++ encodeUnit c.units.u1 ++ encodeUnit c.units.u2 ++ encodeUnit c.units.u3 ++ encodeUnit c.units.u4
    ++ encodeUnit c.units.u5 ++ encodeUnit c.units.u6 ++ [c.enables]

/-- The configuration that 408 bytes of records give, every number and code as it stands (log 13). -/
def decodeConfig (bs : List Byte) : WorkingCopy where
  link := decodeLink (sliceAt bs 0 2)
  station := decodeStation (sliceAt bs 2 61)
  gauges :=
    ⟨decodeGauge (sliceAt bs 63 5), decodeGauge (sliceAt bs 68 5), decodeGauge (sliceAt bs 73 5),
      decodeGauge (sliceAt bs 78 5)⟩
  units :=
    ⟨decodeUnit (sliceAt bs 83 54), decodeUnit (sliceAt bs 137 54), decodeUnit (sliceAt bs 191 54),
      decodeUnit (sliceAt bs 245 54), decodeUnit (sliceAt bs 299 54), decodeUnit (sliceAt bs 353 54)⟩
  enables := codeByte (fieldAt bs 407 1)

/-- The image a save programs: the records and their check (R197, R199). -/
def encodeImage (c : WorkingCopy) : List Byte := encodeConfig c ++ crcBytes (encodeConfig c)

/-- Whether the check of an image agrees (R197). -/
def imageAgrees (image : List Byte) : Bool :=
  decide (image.length = 410) && sliceAt image 408 2 == crcBytes (sliceAt image 0 408)

/-- The configuration a load takes from an image; none exactly where its check does not agree (R197). -/
def loadImage (image : List Byte) : Option WorkingCopy :=
  if imageAgrees image then some (decodeConfig (sliceAt image 0 408)) else none

/-! ### The record selector (R198) -/

/-- A record of the working copy. -/
inductive RecordName where
  | link
  | station
  | gauge (c : ChannelName)
  | unit (u : UnitNo)
  deriving DecidableEq, Repr

/-- The channel an instance names, 1 to 4. -/
def channelOf : Nat → Option ChannelName
  | 1 => some .ga
  | 2 => some .gb
  | 3 => some .go
  | 4 => some .gs
  | _ => none

/-- The record a selector names: type, then instance. -/
def recordNamed : Nat → Nat → Option RecordName
  | 0, 0 => some .link
  | 1, 0 => some .station
  | 2, n => (channelOf n).map .gauge
  | 3, n => (UnitNo.ofNumber n).map .unit
  | _, _ => none

/-- The exact length of a record. -/
def RecordName.length : RecordName → Nat
  | .link => 2
  | .station => 61
  | .gauge _ => 5
  | .unit _ => 54

/-- The record as it stands in the working copy, in its layout. -/
def WorkingCopy.encodeRecordOf (c : WorkingCopy) : RecordName → List Byte
  | .link => encodeLink c.link
  | .station => encodeStation c.station
  | .gauge ch => encodeGauge (c.gauges.get ch)
  | .unit u => encodeUnit (c.units.get u)

end Sys2Proof.Machine
end

