-- ==== Sys2Proof/Machine/Curves.lean ====
section
/-! DEFINITION. The curve table (chapter 2): flow, power and the head-limited flag from a curve, the effective
head from a snapshot, and whether head limiting is in force. -/

namespace Sys2Proof.Machine

/-- What a curve gives at a head. -/
structure Reading where
  flow : Nat
  power : Nat
  limited : Bool
  deriving DecidableEq, Repr

/-- The value at `h` on the segment from head `h0` (value `v0`) to head `h1` (value `v1`): the product exact, the
quotient rounded toward zero and added to `v0` (R22). -/
def interpolate (v0 v1 h0 h1 h : Nat) : Nat :=
  ((v0 : Int) + quotToZero (((v1 : Int) - v0) * ((h : Int) - h0)) ((h1 : Int) - h0)).toNat

/-- The reading at a head at or above point `c`, the points after it being `rest` (R22, R24). -/
def readFrom (c : CurvePoint) : List CurvePoint → Nat → Reading
  | [], h => if h = c.head then ⟨c.flow, c.power, false⟩ else ⟨0, c.power, true⟩
  | d :: rest, h =>
    if h < d.head then
      ⟨interpolate c.flow d.flow c.head d.head h, interpolate c.power d.power c.head d.head h, false⟩
    else readFrom d rest h

/-- The reading of a curve at a head (R22–R24). A written curve has at least two points (R17); what an empty one
gives, which only a loaded image can bring, is free (log 42). -/
def readCurve : List CurvePoint → Nat → Reading
  | [], h => ⟨(Config.emptyCurve h).1, (Config.emptyCurve h).2.1, (Config.emptyCurve h).2.2⟩
  | c :: rest, h => if h < c.head then ⟨c.flow, c.power, false⟩ else readFrom c rest h

/-- The effective head: the raw head clamped to 0–30,000 mm (R21). -/
def effectiveHead (raw : Int) : Nat := (clampInt 0 30000 raw).toNat

/-- The derived values of a unit for a head and the basis it was formed on. -/
def deriveAt (r : UnitRecord) (head : Nat) (basis : HeadBasis) : Derived :=
  ⟨head, basis, (readCurve r.curve head).flow, (readCurve r.curve head).power,
    (readCurve r.curve head).limited⟩

/-- The derived values on the FALLBACK basis (R19, R28): `fallback` is the fallback head. -/
def deriveFallback (fallback : Nat) (r : UnitRecord) : Derived :=
  deriveAt r (effectiveHead ((fallback : Int) + r.loss)) .fallback

/-- The derived values at a snapshot (R19, R20): a head from the levels, or from the fallback head, or, without an
inner level, the head and basis as they were. -/
def deriveFrom (fallback : Nat) (r : UnitRecord) (snap : Snapshot) (old : Derived) : Derived :=
  match snap.inner with
  | none => deriveAt r old.head old.basis
  | some inner =>
    match snap.outerQuality, snap.outer with
    | .ok, some outer => deriveAt r (effectiveHead (outer - inner + r.loss)) .outerOk
    | .held, some outer => deriveAt r (effectiveHead (outer - inner + r.loss)) .outerHeld
    | _, _ => deriveFallback fallback r

/-- A snapshot forms heads on the FALLBACK basis (R19): it carries an inner level, and no outer level that is OK or
HELD. -/
def formsFallback (snap : Snapshot) : Bool :=
  snap.inner.isSome
    && match snap.outerQuality, snap.outer with
       | .ok, some _ | .held, some _ => false
       | _, _ => true

/-- The curve table takes a snapshot: the derived values of all six units (R26). A fallback head written since the
last one is first used here, where the snapshot forms heads on the FALLBACK basis (R18). -/
def Part.formCurves (p : Part) (snap : Snapshot) : Part :=
  { p with
    curves := Six.ofFn fun u =>
      deriveFrom p.config.station.fallbackHead (p.unitRecord u) snap (p.curves.get u)
    fallbackInUse := if formsFallback snap then p.config.station.fallbackHead else p.fallbackInUse }

/-- The derived values of one unit after a write of its record (R18): as at the snapshot in force, or, without one, as
at the reset, with the fallback head in use. -/
def Part.reformCurve (p : Part) (u : UnitNo) : Part :=
  { p with
    curves := p.curves.set u
      (match p.gauge.snapshot with
       | some snap => deriveFrom p.fallbackInUse (p.unitRecord u) snap (p.curves.get u)
       | none => deriveFallback p.fallbackInUse (p.unitRecord u)) }

/-- Head limiting is in force on this outer quality (R27). -/
def limitingInForce : OuterQuality → Bool
  | .ok | .held => true
  | .lost | .init => false

/-- Head limiting is in force: the outer quality of the snapshot in force is OK or HELD (R27). -/
def Part.headLimiting (p : Part) : Bool :=
  match p.gauge.snapshot with
  | some snap => limitingInForce snap.outerQuality
  | none => false

/-- The flow estimate in force of a unit. -/
def Part.flow (p : Part) (u : UnitNo) : Nat := (p.curves.get u).flow

/-- The power estimate in force of a unit. -/
def Part.power (p : Part) (u : UnitNo) : Nat := (p.curves.get u).power

/-- The heads of a curve strictly rise (R17). -/
def headsRise : List CurvePoint → Bool
  | a :: b :: rest => decide (a.head < b.head) && headsRise (b :: rest)
  | [_] => true
  | [] => true

/-- A point lies within the ranges of section 2.1 (R17). -/
def pointValid (q : CurvePoint) : Bool :=
  decide (q.head ≤ 30000) && decide (q.flow ≤ 20000) && decide (q.power ≤ 2000)

/-- A curve is valid (R17): 2 to 6 points, heads strictly rising, every number within its range. -/
def curveValid (c : List CurvePoint) : Bool :=
  decide (2 ≤ c.length) && decide (c.length ≤ 6) && c.all pointValid && headsRise c

end Sys2Proof.Machine
end

