-- ==== Sys2Proof/Machine/UnitOps.lean ====
section
/-! DEFINITION. The shared operations of the unit controllers (chapter 3): a change of state with its lines and
timers, delivering and reserved load, the entry into STARTING, the taking of a grant, the consultation of the
start history. -/

namespace Sys2Proof.Machine

/-! ### States, lines, timers (R30, R31) -/

/-- START is asserted in these states (R31). -/
def UnitState.drivesStart : UnitState → Bool
  | .starting | .running => true
  | .offline | .idle | .queued | .priming | .stopping | .resting | .tripped => false

/-- PRIME is asserted in this state (R31). -/
def UnitState.drivesPrime : UnitState → Bool
  | .priming => true
  | .offline | .idle | .queued | .starting | .running | .stopping | .resting | .tripped => false

/-- AIRVALVE of a SIPHON unit is asserted in these states (R31). -/
def UnitState.holdsSiphon (st : UnitState) : Bool := st.drivesStart || st.drivesPrime

/-- AIRVALVE is asserted: a SIPHON unit in PRIMING, STARTING or RUNNING (R31). -/
def airvalveOf (outlet : Outlet) (st : UnitState) : Bool := outlet.isSiphon && st.holdsSiphon

/-- The timer where it may run in the new state, stopped otherwise (R30). -/
def keepTimer (may : Bool) (t : Option Timer) : Option Timer := if may then t else none

/-- A change of state: the lines follow it (R31), and every timer that may not run in it is cancelled (R30). -/
def PumpUnit.enter (outlet : Outlet) (st : UnitState) (pu : PumpUnit) : PumpUnit :=
  { pu with
    state := st
    startOut := st.drivesStart
    primeOut := st.drivesPrime
    airvalveOut := airvalveOf outlet st
    primeTimer := keepTimer (st == .priming) pu.primeTimer
    startTimer := keepTimer (st == .starting) pu.startTimer
    stopTimer := keepTimer (st == .stopping) pu.stopTimer
    minRunTimer := keepTimer (st == .running) pu.minRunTimer
    restTimer := keepTimer (st == .resting) pu.restTimer
    runLossTimer := keepTimer (st == .running) pu.runLossTimer
    dwellTimer := keepTimer (st == .running) pu.dwellTimer }

/-- Unit `u` changes its state. -/
def Part.enterUnit (p : Part) (u : UnitNo) (st : UnitState) : Part :=
  p.modUnit u (PumpUnit.enter (p.unitRecord u).outlet st)

/-- Unit `u` enters RESTING with its rest timer started (R36, R40). -/
def Part.enterResting (p : Part) (u : UnitNo) : Part :=
  (p.enterUnit u .resting).modUnit u fun pu =>
    { pu with restTimer := p.startTimer (p.unitRecord u).minRest }

/-- Unit `u` enters TRIPPED with a fault code (R46). -/
def Part.tripUnit (p : Part) (u : UnitNo) (f : FaultCode) : Part :=
  (p.enterUnit u .tripped).modUnit u fun pu => { pu with fault := some f }

/-! ### Delivering and reserved load (R45, R47, R48) -/

/-- A unit is delivering: RUN asserted in RUNNING, STOPPING or TRIPPED (R47). -/
def PumpUnit.delivering (pu : PumpUnit) : Bool :=
  pu.run &&
    match pu.state with
    | .running | .stopping | .tripped => true
    | .offline | .idle | .queued | .priming | .starting | .resting => false

/-- A unit is in its start sequence or RUNNING: the states that take a stop order (R38). -/
def PumpUnit.inService (pu : PumpUnit) : Bool :=
  match pu.state with
  | .priming | .starting | .running => true
  | .offline | .idle | .queued | .stopping | .resting | .tripped => false

/-- A unit is in its start sequence, so that it holds the start slot (R100). -/
def PumpUnit.inStart (pu : PumpUnit) : Bool :=
  match pu.state with
  | .priming | .starting => true
  | .offline | .idle | .queued | .running | .stopping | .resting | .tripped => false

/-- The mains state is OK. -/
def Part.mainsGood (p : Part) : Bool := p.supervision.mains == .ok

/-- Unit `u` sets its reserved load to `kw`; it stays 0 while the mains state is not OK (R45). The arbiter is told
afterwards, by `loadsFell` or `loadsMoved`. -/
def Part.setReserved (p : Part) (u : UnitNo) (kw : Nat) : Part :=
  p.modUnit u fun pu => { pu with reserved := if p.mainsGood then kw else 0 }

/-- The sum of the six reserved loads (R107). -/
def Part.reservedSum (p : Part) : Nat :=
  p.units.u1.reserved + p.units.u2.reserved + p.units.u3.reserved + p.units.u4.reserved
    + p.units.u5.reserved + p.units.u6.reserved

/-! ### The start sequence (R32, R34) -/

/-- A list of at most 12 entries with one appended; a full one discards its oldest first (R34). -/
def appendHistory (h : List Word32) (now : Word32) : List Word32 :=
  (if 12 ≤ h.length then h.tail else h) ++ [now]

/-- A count that saturates at 2^32 − 1. -/
def addSaturating32 (n k : Nat) : Nat := min (n + k) 4294967295

/-- Unit `u` enters STARTING (R34): START asserted, start timer started, the start entered in the history and
counted in the start total (R166). -/
def Part.enterStarting (p : Part) (u : UnitNo) : Part :=
  let p1 := p.enterUnit u .starting
  let p2 := p1.modUnit u fun pu =>
    { pu with
      startTimer := p.startTimer (p.unitRecord u).startTimeout
      history := appendHistory pu.history p.accounting.uptime }
  { p2 with
    accounting.totals.startTotals :=
      p2.accounting.totals.startTotals.set u
        (addSaturating32 (p2.accounting.totals.startTotals.get u) 1) }

/-- Unit `u` takes a grant (R32); what a timer of 0 s started here brings is `startIfZero` (R30). -/
def Part.takeGrant (p : Part) (u : UnitNo) : Part :=
  let p1 := p.modUnit u fun pu =>
    { pu with lastGrant := some p.accounting.uptime, minRunElapsed := false }
  if (p.unitRecord u).outlet.isSiphon && !(p.unit u).primed then
    (p1.enterUnit u .priming).modUnit u fun pu =>
      { pu with primeTimer := p.startTimer (p.unitRecord u).primeTimeout }
  else p1.enterStarting u

/-! ### Start history and eligibility (R51, R52) -/

/-- The entries of a history that are newer than the uptime less 3,600 s (R51). -/
def prunedHistory (now : Word32) (h : List Word32) : List Word32 :=
  h.filter fun t => decide (secondsSince now t < 3600)

/-- The history of unit `u` as a consultation leaves it. -/
def Part.historyNow (p : Part) (u : UnitNo) : List Word32 :=
  prunedHistory p.accounting.uptime (p.unit u).history

/-- The count in the hour is below max_starts_per_hour (R52). -/
def Part.underLimit (p : Part) (u : UnitNo) : Bool :=
  decide ((p.historyNow u).length < (p.unitRecord u).maxStarts)

/-- The enabled flag and the state allow an enqueue (R52); `own` marks the unit's own re-enqueue at the end of a
retry rest (R37). -/
def Part.mayJoin (p : Part) (u : UnitNo) (own : Bool) : Bool :=
  (p.unitRecord u).enabled
    && ((p.unit u).state == .idle || (own && (p.unit u).state == .resting))

/-- Unit `u` is eligible to be enqueued (R52). -/
def Part.eligible (p : Part) (u : UnitNo) (own : Bool) : Bool := p.mayJoin u own && p.underLimit u

/-- The seconds until the oldest entry of a history ages out (R52). -/
def secondsToAge (now : Word32) (h : List Word32) : Option Int :=
  h.head?.map fun t => 3600 - (secondsSince now t : Int)

/-- A consultation of the history of unit `u` (R51, R52): old entries removed, the limit reported once. -/
def Part.consult (p : Part) (u : UnitNo) (own : Bool) : Part :=
  let p1 := p.modUnit u fun pu => { pu with history := p.historyNow u }
  if p.underLimit u then p1.modUnit u fun pu => { pu with limitReported := false }
  else if p.mayJoin u own && !(p.unit u).limitReported then
    (p1.modUnit u fun pu => { pu with limitReported := true }).record .startLimit (some u)
      (secondsToAge p.accounting.uptime (p.historyNow u))
  else p1

end Sys2Proof.Machine
end

