-- ==== Sys2Proof/Machine/Arbiter.lean ====
section
/-! DEFINITION. The start arbiter's queue, slot and grant (sections 6.1 to 6.3), the failed start (R36), which a grant
can meet at once (R30), and what a fall of committed load brings about (R107, R116). -/

namespace Sys2Proof.Machine

/-! ### The slot (R100, R101) -/

/-- Unit `u` reports its slot free (R100): where it holds it, the slot becomes free and the stagger timer is
started. The grant check of the freeing finds that timer running and grants nothing. -/
def Part.freeSlot (p : Part) (u : UnitNo) : Part :=
  if p.arbiter.slot = some u then
    { p with
      arbiter.slot := none
      arbiter.stagger := p.startTimer p.config.station.stagger }
  else p

/-! ### What a failed start does (R36, R37, R97), but for the arbiter's checks -/

/-- The queue replaced. -/
def Part.setQueue (p : Part) (q : List QueueEntry) : Part := { p with arbiter.queue := q }

/-- Unit `u` joins the queue at its tail and enters QUEUED, and the gauge unit is told (R15, R97); the grant check is
the caller's. -/
def Part.joinQueue (p : Part) (u : UnitNo) (origin : QueueOrigin) : Part :=
  { (p.setQueue (p.arbiter.queue ++ [⟨u, origin, p.accounting.uptime⟩])).enterUnit u .queued with
    roundDue := true }

/-- The rest of unit `u` ends in an enqueue: a retry is pending, and the unit is eligible (R37). -/
def Part.rejoins (p : Part) (u : UnitNo) : Bool := (p.unit u).retryPending && p.eligible u true

/-- The rest of unit `u` ends (R37): a pending retry is consulted and, where eligible, enqueued; the unit otherwise
enters IDLE. The grant check of the enqueue is the caller's. -/
def Part.restOver (p : Part) (u : UnitNo) : Part :=
  if (p.unit u).retryPending then
    let p1 := (p.modUnit u fun pu => { pu with retryPending := false, restTimer := none }).consult u true
    if p.rejoins u then p1.joinQueue u .retry else p1.enterUnit u .idle
  else p.enterUnit u .idle

/-- A PRIME_FAIL or START_FAIL (R36), before the arbiter is told of the load: `code` is its event, `f` its fault
code. -/
def Part.startFailed (p : Part) (u : UnitNo) (code : EventCode) (f : FaultCode) : Part :=
  let left := (p.unit u).retriesLeft
  let p1 := ((p.setReserved u 0).freeSlot u).record code (some u) (some ((left - 1 : Nat) : Int))
  if 0 < left then
    ((p1.modUnit u fun pu => { pu with retriesLeft := left - 1, retryPending := true }).enterResting u).record
      .retryScheduled (some u) (some ((left - 1 : Nat) : Int))
  else p1.tripUnit u f

/-- Committed load becomes the sum of the reserved loads (R107). -/
def Part.sumLoads (p : Part) : Part := { p with arbiter.committed := p.reservedSum }

/-- A start that fails in its own grant (R30, R36). Its freeing of the slot has started the stagger timer, so that the
grant checks of the fallen load and of a retry enqueued at once grant nothing (R101, R102): none is taken. -/
def Part.failAtGrant (p : Part) (u : UnitNo) (code : EventCode) (f : FaultCode) : Part :=
  let p1 := (p.startFailed u code f).sumLoads
  if 0 < (p.unit u).retriesLeft ∧ (p.unitRecord u).minRest = 0 then p1.restOver u else p1

/-- A prime or start timer of 0 s expires in the grant that starts it (R30, log 28). -/
def Part.startIfZero (p : Part) (u : UnitNo) : Part :=
  match (p.unit u).state with
  | .priming => if (p.unitRecord u).primeTimeout = 0 then p.failAtGrant u .primeFail .primeFail else p
  | .starting => if (p.unitRecord u).startTimeout = 0 then p.failAtGrant u .startFail .startFail else p
  | .offline | .idle | .queued | .running | .stopping | .resting | .tripped => p

/-! ### The grant check (R102–R105) -/

/-- The station conditions of a grant, but for the queue's holding an entry (R102). -/
def Part.stationReady (p : Part) : Bool :=
  p.arbiter.slot.isNone && p.arbiter.stagger.isNone && p.mainsGood && !p.dispatcher.hold
    && p.gauge.rack == .clear && p.arbiter.shed == .normal

/-- The grant of a unit whose entry has just left the queue (R105): slot, reserved load, committed load, and the
unit's own part (R32), with the expiry of a timer it starts with 0 s (R30). -/
def Part.grant (p : Part) (u : UnitNo) : Part :=
  let p1 := { p with arbiter.slot := some u }.setReserved u (p.power u)
  (p1.sumLoads.takeGrant u).startIfZero u

/-- The head check and the load test (R103, R104), down the queue: head-limited heads are removed while head
limiting is in force, and the first other head is granted or waits. -/
def grantFrom : List QueueEntry → Part → Part
  | [], p => p
  | e :: rest, p =>
    if p.headLimiting && (p.curves.get e.unit).limited then
      grantFrom rest
        (((p.setQueue rest).enterUnit e.unit .idle).record .headLimitRemoved (some e.unit)
          (some ((p.curves.get e.unit).head : Int)))
    else if p.arbiter.committed + p.power e.unit ≤ p.arbiter.effective then
      (p.setQueue rest).grant e.unit
    else p

/-- A grant check (R102). -/
def Part.grantCheck (p : Part) : Part :=
  if p.stationReady then grantFrom p.arbiter.queue p else p

/-! ### Entries (R97, R98) -/

/-- The start queue holds an entry for unit `u`. -/
def Part.queued (p : Part) (u : UnitNo) : Bool := p.arbiter.queue.any fun e => e.unit == u

/-- Unit `u` stands at the head of the queue. -/
def Part.headIs (p : Part) (u : UnitNo) : Bool := p.arbiter.queue.head?.map (·.unit) == some u

/-- An enqueue is taken for a unit in IDLE, or in RESTING at its own retry rest's end (R97). -/
def Part.takesEnqueue (p : Part) (u : UnitNo) (origin : QueueOrigin) : Bool :=
  (p.unit u).state == .idle || ((p.unit u).state == .resting && origin == .retry)

/-- An enqueue (R97): the entry joins at the tail, the unit enters QUEUED, the gauge unit is told (R15), and a
grant check follows. -/
def Part.enqueue (p : Part) (u : UnitNo) (origin : QueueOrigin) : Part :=
  if p.takesEnqueue u origin then (p.joinQueue u origin).grantCheck else p

/-- The entry of unit `u` leaves the queue (R98); its unit's state and the check for a new head are the
caller's. -/
def Part.dropEntry (p : Part) (u : UnitNo) : Part :=
  p.setQueue (p.arbiter.queue.filter fun e => e.unit != u)

/-- The grant check of a removal: taken when the removed entry was the head (R98). On a queue left empty it does
nothing. -/
def Part.checkIf (p : Part) (wasHead : Bool) : Part := if wasHead then p.grantCheck else p

/-- The units of entries return to IDLE. -/
def idleUnits : List QueueEntry → Part → Part
  | [], p => p
  | e :: rest, p => idleUnits rest (p.enterUnit e.unit .idle)

/-- The queue is emptied: every entry leaves and each unit enters IDLE (R98). -/
def Part.emptyQueue (p : Part) : Part := idleUnits p.arbiter.queue (p.setQueue [])

/-! ### A fall of committed load (R107, R116) -/

/-- In SHEDDING with committed load within the budget, the shed state returns to NORMAL (R116); the grant check
is the caller's. -/
def Part.shedOver (p : Part) : Part :=
  if p.arbiter.shed == .shedding && decide (p.arbiter.committed ≤ p.arbiter.effective) then
    { p with
      arbiter.shed := .normal
      arbiter.shedDelay := none }
  else p

/-- The arbiter takes the new sum of reserved loads where it can only have fallen: a fall may end a shed and takes
a grant check (R107, R116). -/
def Part.loadsFell (p : Part) : Part :=
  if p.reservedSum < p.arbiter.committed then (p.sumLoads.shedOver).grantCheck else p.sumLoads

end Sys2Proof.Machine
end

