-- ==== Sys2Proof/Machine/Stops.lean ====
section
/-! DEFINITION. The stop sequence (section 3.4), the rest after it (R37) and the failed start (R36). -/

namespace Sys2Proof.Machine

/-! ### The rest (R37) -/

/-- The rest of unit `u` ends (R37), with the grant check of an enqueue (R97). -/
def Part.endRest (p : Part) (u : UnitNo) : Part := (p.restOver u).checkIf (p.rejoins u)

/-- A rest of 0 s ends in the event that starts it (R30, log 28). -/
def Part.restIfZero (p : Part) (u : UnitNo) : Part :=
  if (p.unitRecord u).minRest = 0 then p.endRest u else p

/-! ### The end of a stop (R40) -/

/-- The stop of unit `u` ends (R40), before the arbiter is told of its load. -/
def Part.stopEnded (p : Part) (u : UnitNo) : Part :=
  let p1 := ((p.setReserved u 0).record .unitStopped (some u)
      ((p.unit u).stopOrigin.map fun o => (o.code : Int))).modUnit u fun pu =>
    { pu with stopOrigin := none }
  if !(p.unitRecord u).enabled then p1.enterUnit u .offline
  else if (p.unit u).stopOrigin == some .mains || !p.mainsGood then p1.enterUnit u .idle
  else (p1.enterResting u).restIfZero u

/-- The stop of unit `u` ends and the arbiter is told of its load (R40, R48). -/
def Part.endStop (p : Part) (u : UnitNo) : Part := (p.stopEnded u).loadsFell

/-! ### Stop orders (R38, R39) -/

/-- A stop order of this origin is taken in the state of the unit (R38). -/
def PumpUnit.takesStop (pu : PumpUnit) (origin : StopOrigin) : Bool :=
  match pu.state with
  | .priming | .starting => true
  | .running => origin != .dispatch || pu.minRunElapsed
  | .idle | .offline => origin == .reset
  | .queued | .stopping | .resting | .tripped => false

/-- Unit `u` enters STOPPING with its stop timer started. -/
def Part.enterStopping (p : Part) (u : UnitNo) : Part :=
  (p.enterUnit u .stopping).modUnit u fun pu =>
    { pu with stopTimer := p.startTimer (p.unitRecord u).stopTimeout }

/-- The stop timer of unit `u` expires (R40): STOP_FAIL. -/
def Part.stopFails (p : Part) (u : UnitNo) : Part :=
  ((p.tripUnit u .stopFail).record .stopFail (some u)
      ((p.unit u).stopOrigin.map fun o => (o.code : Int))).modUnit u fun pu =>
    { pu with stopOrigin := none }

/-- A stop timer of 0 s expires in the event that starts it (R30, log 28). -/
def Part.stopIfZero (p : Part) (u : UnitNo) : Part :=
  if (p.unitRecord u).stopTimeout = 0 then p.stopFails u else p

/-- A stop order that is taken (R39): the slot freed, the load of a MAINS order set to 0 (R45), and the unit
STOPPING, or its stop ended where RUN is released. -/
def Part.takeStop (p : Part) (u : UnitNo) (origin : StopOrigin) : Part :=
  let p1 := if (p.unit u).inStart then p.freeSlot u else p
  let p2 := if origin = .mains then p1.setReserved u 0 else p1
  let p3 := p2.modUnit u fun pu => { pu with stopOrigin := some origin }
  if (p.unit u).run then ((p3.enterStopping u).stopIfZero u).loadsFell else p3.endStop u

/-- A stop order reaches unit `u` (R38): taken, or ignored. -/
def Part.stopOrder (p : Part) (u : UnitNo) (origin : StopOrigin) : Part :=
  if (p.unit u).takesStop origin then p.takeStop u origin else p

/-- Stop orders to each unit of a list that is in PRIMING, STARTING or RUNNING, in the list's order. -/
def stopAll (origin : StopOrigin) : List UnitNo → Part → Part
  | [], p => p
  | u :: us, p => stopAll origin us (if (p.unit u).inService then p.stopOrder u origin else p)

/-! ### Failed starts (R36) -/

/-- A PRIME_FAIL or START_FAIL (R36): the arbiter is told of the load, and a rest of 0 s ends at once (R30). -/
def Part.failStart (p : Part) (u : UnitNo) (code : EventCode) (f : FaultCode) : Part :=
  let p1 := (p.startFailed u code f).loadsFell
  if 0 < (p.unit u).retriesLeft then p1.restIfZero u else p1

end Sys2Proof.Machine
end

