-- ==== Sys2Proof/Machine/Power.lean ====
section
/-! DEFINITION. Committed load against the budget: the shed test and the shed (section 6.5), a move of committed
load (R107), the effective budget and what follows its change (R108). -/

namespace Sys2Proof.Machine

/-! ### The ranking read by the arbiter (R86, R87) -/

/-- The stop order of the ranking in force: the start order reversed (R86, R87). -/
def Part.stopRanking (p : Part) : List UnitNo := p.dispatcher.startOrder.reverse

/-! ### The shed (R113, R114) -/

/-- A unit of this authority that is RUNNING and holds a reserved load (R113). -/
def Part.sheddable (p : Part) (a : Authority) (u : UnitNo) : Bool :=
  (p.unit u).authority == a && (p.unit u).state == .running && decide (0 < (p.unit u).reserved)

/-- The target of a shed (R113): AUTO running units first, then HAND, then the unit in its start sequence. -/
def Part.shedTarget (p : Part) : Option UnitNo :=
  match p.stopRanking.find? (p.sheddable .auto) with
  | some u => some u
  | none =>
    match p.stopRanking.find? (p.sheddable .hand) with
    | some u => some u
    | none => p.stopRanking.find? fun u => (p.unit u).inStart

/-- One shed (R114): SHED_STOP with the excess, then the stop order. -/
def Part.shedOne (p : Part) : Part :=
  match p.shedTarget with
  | some u =>
    (p.record .shedStop (some u) (some ((p.arbiter.committed : Int) - p.arbiter.effective))).stopOrder u
      .shed
  | none => p

/-- The shed delay timer is started. -/
def Part.startShedDelay (p : Part) : Part :=
  { p with arbiter.shedDelay := p.startTimer p.config.station.shedDelay }

/-- The shed test (R112): in NORMAL, with committed load above the effective budget, SHEDDING begins and one shed is
taken (log 17). -/
def Part.shedTest (p : Part) : Part :=
  if p.arbiter.shed == .normal && decide (p.arbiter.effective < p.arbiter.committed) then
    ({ p with arbiter.shed := .shedding }.startShedDelay).shedOne
  else p

/-- The arbiter takes the new sum of reserved loads (R107): a rise takes the shed test, a fall a grant check. -/
def Part.loadsMoved (p : Part) : Part :=
  if p.arbiter.committed < p.reservedSum then
    p.sumLoads.shedTest
  else p.loadsFell

/-! ### The effective budget (R108) -/

/-- The active budget (R108). -/
def Part.activeBudget (p : Part) : Nat := p.plan.budget.getD p.config.station.stationBudget

/-- The effective budget that the inputs as they stand give (R108). -/
def Part.budgetNow (p : Part) : Nat :=
  if p.arbiter.curtail then min p.activeBudget p.config.station.curtailedBudget else p.activeBudget

/-- The effective budget is formed afresh (R108); the check that follows is `budgetMoved`. -/
def Part.formBudget (p : Part) : Part := { p with arbiter.effective := p.budgetNow }

/-- What follows a change of the effective budget from `old` (R108, R116). -/
def Part.budgetMoved (p : Part) (old : Nat) : Part :=
  if old < p.arbiter.effective then p.shedOver.grantCheck
  else if p.arbiter.effective < old then p.shedTest
  else p

/-- The effective budget is formed afresh and acted on in the same event (R108, R111, R136). -/
def Part.reformBudget (p : Part) : Part := p.formBudget.budgetMoved p.arbiter.effective

/-- CURTAIL moves (R110): the budget is formed afresh, the order of the utility recorded, and the change acted
on. -/
def Part.curtailMoved (p : Part) (level : Bool) (code : EventCode) : Part :=
  let p1 := { p with arbiter.curtail := level }.formBudget
  (p1.record code none (some (p1.arbiter.effective : Int))).budgetMoved p.arbiter.effective

end Sys2Proof.Machine
end

