-- ==== Sys2Proof/Machine/Estimator.lean ====
section
/-! DEFINITION. The demand estimator (chapter 4): interval volume, history ring, states, inflow; the demand
formula. -/

namespace Sys2Proof.Machine

/-- The sluice state is CLOSED. -/
def Part.sluiceClosed (p : Part) : Bool := p.sluice.state == .closed

/-- A list of at most 16 records with one appended; a full one discards its oldest first (R62). -/
def appendRing (ring : List HistoryRecord) (r : HistoryRecord) : List HistoryRecord :=
  (if 16 ≤ ring.length then ring.tail else ring) ++ [r]

/-- A record is usable (R63). -/
def HistoryRecord.usable (r : HistoryRecord) : Bool := r.level.isSome && r.closedThroughout

/-- The newest `k` records of the ring, oldest first. -/
def newestRecords (ring : List HistoryRecord) (k : Nat) : List HistoryRecord := ring.drop (ring.length - k)

/-- The window is usable: the ring holds n + 1 records and the newest n + 1 are usable (R64). -/
def windowUsable (ring : List HistoryRecord) (n : Nat) : Bool :=
  decide (n + 1 ≤ ring.length) && (newestRecords ring (n + 1)).all HistoryRecord.usable

/-- The sum of the interval volumes of records. -/
def volumeSum (rs : List HistoryRecord) : Nat := (rs.map (·.volume)).sum

/-- The inflow from a usable window (R65): `rs` are the newest n + 1 records. With n × E of 0 the quotient is free (log
42). -/
def inflowOf (area n interval : Nat) (rs : List HistoryRecord) : Option Nat :=
  match rs with
  | [] => none
  | oldest :: volumes =>
    match oldest.level, (volumes.getLastD oldest).level with
    | some first, some last =>
      some (clampInt 0 65535
        (quotOrFree Config.inflowByZero ((area : Int) * (last - first) + volumeSum volumes)
          ((n * interval : Nat) : Int))).toNat
    | _, _ => none

/-- The estimator's state and inflow after an append (R64, R65). -/
def Estimator.updated (st : StationRecord) (e : Estimator) : Estimator :=
  if windowUsable e.ring st.window then
    { e with
      state := .active
      inflow :=
        (inflowOf st.area st.window st.interval (newestRecords e.ring (st.window + 1))).getD e.inflow }
  else
    { e with
      state :=
        match e.state with
        | .warming => .warming
        | .active => .held
        | .held => .held }

/-- The inner level of the snapshot in force. -/
def Part.innerLevel (p : Part) : Option Int := p.gauge.snapshot.bind (·.inner)

/-- The record of the interval that closes now (R62). -/
def Part.historyRecord (p : Part) : HistoryRecord :=
  ⟨p.accounting.uptime, p.innerLevel, p.estimator.intervalVolume, p.estimator.closedThroughout⟩

/-- The history timer expires (R62): the record appended, a new interval begun, state and inflow brought up to
date. -/
def Part.closeInterval (p : Part) : Part :=
  { p with
    estimator :=
      Estimator.updated p.config.station
        { p.estimator with
          ring := appendRing p.estimator.ring p.historyRecord
          intervalVolume := 0
          closedThroughout := p.sluiceClosed
          timer := p.startTimer p.config.station.interval } }

/-- The estimator as it restarts (R69, R71): mark from the sluice state, timer started with E, WARMING. -/
def Part.freshEstimator (p : Part) : Estimator where
  intervalVolume := 0
  closedThroughout := p.sluiceClosed
  timer := p.startTimer p.config.station.interval
  ring := []
  state := .warming
  inflow := 0

/-- The demand (R67). With τ of 0 the quotient is free (log 42). -/
def demandOf (inflow area drawdown : Nat) (level target : Int) : Nat :=
  (clampInt 0 65535 ((inflow : Int)
    + quotOrFree Config.demandByZero ((area : Int) * (level - target)) (drawdown : Int))).toNat

/-- HISTORY_TIMER_EXPIRY (R62). -/
def execHistoryTimerExpiry (s : State) : Result := s.act Part.closeInterval

end Sys2Proof.Machine
end

