-- ==== Sys2Proof/Machine/Link.lean ====
section
/-! DEFINITION. The link controller's shared operations (chapter 11): receive state and gap timer, link error
flags, acceptance (R147, R149, R179), the reply (R180–R182), and the form every request row takes. -/

namespace Sys2Proof.Machine

/-! ### Receive state, gap timer, flags -/

/-- The gap timer is started with the gap limit in force (R176). -/
def Link.startGap (l : Link) : Link := { l with gap := some l.settings.gapLimit.ms }

/-- A telegram is complete (R178): the gap timer stopped, the receive buffer emptied (log 24). -/
def Link.completed (l : Link) : Link := { l with gap := none, buffer := [] }

/-- A complete telegram fails its check (R178). -/
def Link.checkFailed (l : Link) : Link := { l.completed with rx := .hunting, flags.check := true }

/-- The length byte is above 240 (R177). -/
def Link.oversized (l : Link) : Link :=
  { l with rx := .inTelegram, discarding := true, buffer := [], flags.oversize := true }.startGap

/-- A marker is received in REPLYING, not discarding (R182). -/
def Link.overrun (l : Link) : Link :=
  { l with discarding := true, flags.overrun := true }.startGap

/-- A telegram, or part of one, that arrives where none can be received (R177, R182): it is an overrun in
REPLYING, and more to discard while discarding. -/
def Link.lostTelegram (l : Link) : Link :=
  if l.discarding then l.startGap else l.overrun

/-- A telegram can be received: not REPLYING and not discarding. -/
def Link.receives (l : Link) : Bool := l.rx != .replying && !l.discarding

/-- The part with its link controller changed by `f`. -/
def Part.modLink (p : Part) (f : Link → Link) : Part := { p with link := f p.link }

/-! ### Acceptance (R147, R149, R179) -/

/-- An accepted telegram in AUTONOMOUS returns the mode to SUPERVISED (R149). -/
def Part.resumeSupervision (p : Part) : Part :=
  if p.supervision.mode == .autonomous then
    let p1 := { p with supervision.mode := .supervised }.record .supervisionResumed none
      (p.supervision.autonomousSince.map fun t => (secondsSince p.accounting.uptime t : Int))
    { p1 with supervision.autonomousSince := none }
  else p

/-- The supervision timer is started again, or stopped where the timeout is 0 (R147). -/
def Part.restartSupervision (p : Part) : Part :=
  { p with supervision.timer := p.startTimerUnlessZero p.config.station.supervisionTimeout }

/-- A telegram is accepted (R179): the supervision controller is told before the request is served. -/
def Part.acceptTelegram (p : Part) : Part := p.resumeSupervision.restartSupervision

/-! ### The reply (R180, R182) -/

/-- The reply to a telegram of this kind and tag is formed and its sending begun: REPLYING, direction control
asserted. -/
def Part.reply (p : Part) (kind tag : Byte) (r : Response) : Part :=
  p.modLink fun l =>
    { l with rx := .replying, reply := replyTelegram kind tag r, direction := true }

/-- An accepted telegram is served (R180): supervision told, the request taken by its block, the reply begun. -/
def Part.serve (p : Part) (kind tag : Byte) (service : Part → Part × Response) : Part :=
  let out := service (p.modLink Link.completed).acceptTelegram
  out.1.reply kind tag out.2

/-- A request row: a telegram of this kind and tag that passes its tests arrives. Where no telegram can be received
it is lost (R177, R182, log 22). -/
def request (k : RequestKind) (tag : Byte) (service : Part → Part × Response) (p : Part) : Part :=
  if p.link.receives then p.serve k.byte tag service else p.modLink Link.lostTelegram

/-- An accepted telegram of an unknown kind (R179): accepted, and refused KIND. -/
def refuseKind (kind tag : Byte) (p : Part) : Part :=
  if p.link.receives then p.serve kind tag fun q => (q, .refusal .kind) else p.modLink Link.lostTelegram

/-- A telegram whose body length does not fit its kind (R179): refused LENGTH, not accepted. -/
def refuseLength (kind tag : Byte) (p : Part) : Part :=
  if p.link.receives then (p.modLink Link.completed).reply kind tag (.refusal .length)
  else p.modLink Link.lostTelegram

/-! ### Faults of the line -/

/-- UNKNOWN_KIND (R179). -/
def execUnknownKind (tag kind : Byte) (s : State) : Result := s.act (refuseKind kind tag)

/-- REFUSAL_LENGTH (R179). -/
def execRefusalLength (tag kind : Byte) (s : State) : Result := s.act (refuseLength kind tag)

/-- CHECK_FAILURE (R178). -/
def execCheckFailure (s : State) : Result :=
  s.act fun p => p.modLink fun l => if l.receives then l.checkFailed else l.lostTelegram

/-- OVERSIZE (R177). -/
def execOversize (s : State) : Result :=
  s.act fun p => p.modLink fun l => if l.receives then l.oversized else l.lostTelegram

/-- OVERRUN (R182): a marker in REPLYING. Elsewhere the event does not arise (log 6). -/
def execOverrun (s : State) : Result :=
  s.act fun p => p.modLink fun l => if l.rx == .replying then l.lostTelegram else l

/-- The gap timer expires (R176). -/
def Link.gapExpired (l : Link) : Link :=
  match l.rx, l.discarding with
  | .inTelegram, false => { l with gap := none, rx := .hunting, buffer := [], flags.gap := true }
  | .inTelegram, true => { l with gap := none, rx := .hunting, discarding := false }
  | .replying, true => { l with gap := none, discarding := false }
  | .replying, false | .hunting, _ => { l with gap := none }

/-- GAP_TIMER_EXPIRY (R176). -/
def execGapTimerExpiry (s : State) : Result :=
  s.act fun p => p.modLink fun l => if l.gap.isSome then l.gapExpired else l

end Sys2Proof.Machine
end

