-- ==== Sys2Proof/Machine/Sluice.lean ====
section
/-! DEFINITION. The sluice controller (section 7.1): states and drive lines, arrival, the decisions at the
snapshot, travel timeout, mains, orders. -/

namespace Sys2Proof.Machine

/-- The sluice changes its state (R119): the change is told to the demand estimator, which clears its mark unless
the new state is CLOSED (R61). -/
def Part.sluiceTo (p : Part) (st : SluiceState) : Part :=
  { p with
    sluice.state := st
    estimator.closedThroughout := if st == .closed then p.estimator.closedThroughout else false }

/-- Both drive lines released and the travel timer stopped (R119). -/
def Part.releaseDrive (p : Part) : Part :=
  { p with
    sluice.driveOpen := false
    sluice.driveClose := false
    sluice.travel := none
    sluice.waiting := false }

/-- The gate stands at its closed limit (R120). -/
def Sluice.atClosedLimit (g : Sluice) : Bool := g.atClosed && !g.atOpen

/-- The gate stands at its open limit (R120). -/
def Sluice.atOpenLimit (g : Sluice) : Bool := g.atOpen && !g.atClosed

/-- The seconds since the travel timer was started, on uptime (log 9). -/
def Part.travelSeconds (p : Part) : Option Int :=
  p.sluice.travel.map fun t => (secondsSince p.accounting.uptime t.startedAt : Int)

/-- Arrival is tested (R120), at a line event of either limit line and at each entry into OPENING or CLOSING. -/
def Part.testArrival (p : Part) : Part :=
  match p.sluice.state with
  | .opening =>
    if p.sluice.atOpenLimit then
      ((p.sluiceTo .opened).releaseDrive).record .sluiceOpened none p.travelSeconds
    else p
  | .closing =>
    if p.sluice.atClosedLimit then
      ((p.sluiceTo .closed).releaseDrive).record .sluiceClosed none
        (p.sluice.cause.map fun c => (c.code : Int))
    else p
  | .closed | .opened | .fault => p

/-- CLOSING is driven: SLUICE_CLOSE asserted, the travel timer started afresh (R119, R123). -/
def Part.driveClosed (p : Part) : Part :=
  { p with
    sluice.driveOpen := false
    sluice.driveClose := true
    sluice.travel := p.startTimer p.config.station.travelTimeout
    sluice.waiting := false }

/-- CLOSING waits for mains: no drive line, the timer stopped (R123, R125). -/
def Part.waitForMains (p : Part) : Part :=
  { p with
    sluice.driveOpen := false
    sluice.driveClose := false
    sluice.travel := none
    sluice.waiting := true }

/-- The gate is closed (R123): CLOSING with this cause, driven while the mains state is OK and waiting otherwise;
then arrival is tested. -/
def Part.closeGate (p : Part) (cause : CloseCause) : Part :=
  let p1 := { p with sluice.cause := some cause }.sluiceTo .closing
  (if p.mainsGood then p1.driveClosed else p1.waitForMains).testArrival

/-- The open decision holds on this snapshot (R121). -/
def Part.opensAt (p : Part) (snap : Snapshot) : Bool :=
  p.sluice.state == .closed && p.sluice.mode == .auto && snap.outerQuality == .ok
    && !p.plan.inhibit && p.mainsGood
    && match snap.inner, snap.outer with
       | some inner, some outer =>
         decide ((p.config.station.openMargin : Int) ≤ inner - outer) && decide (p.plan.target < inner)
       | _, _ => false

/-- The first close cause of R122 that holds on this snapshot. -/
def Part.closeCauseAt (p : Part) (snap : Snapshot) : Option CloseCause :=
  if p.sluice.mode == .keepClosed then some .keepClosed
  else if p.plan.inhibit then some .inhibit
  else
    match snap.inner with
    | none => some .innerAbsent
    | some inner =>
      if snap.outerQuality != .ok then some .outerNotOk
      else if inner ≤ p.plan.target - p.plan.band then some .drawdown
      else
        match snap.outer with
        | some outer => if inner - outer < p.config.station.closeMargin then some .margin else none
        | none => none

/-- The gate is opened (R121): SLUICE_OPEN asserted, the travel timer started, the cause cleared, arrival tested. -/
def Part.openGate (p : Part) : Part :=
  ({ p with
      sluice.cause := none
      sluice.driveOpen := true
      sluice.driveClose := false
      sluice.travel := p.startTimer p.config.station.travelTimeout
      sluice.waiting := false }.sluiceTo .opening).testArrival

/-- The sluice controller acts on a snapshot (R121, R122). -/
def Part.sluiceAtSnapshot (p : Part) (snap : Snapshot) : Part :=
  match p.sluice.state with
  | .closed => if p.opensAt snap then p.openGate else p
  | .opened | .opening =>
    match p.closeCauseAt snap with
    | some cause => p.closeGate cause
    | none => p
  | .closing | .fault => p

/-- A mains loss reaches the sluice (R125); the mains state is LOST already. -/
def Part.sluiceMainsLost (p : Part) : Part :=
  match p.sluice.state with
  | .opening => p.closeGate .mains
  | .closing => if p.sluice.waiting then p else p.waitForMains
  | .closed | .opened | .fault => p

/-- The mains state has become OK (R125). -/
def Part.sluiceMainsOk (p : Part) : Part :=
  if p.sluice.state == .closing && p.sluice.waiting then p.driveClosed else p

/-- A limit line of the gate has moved (R120): departure in CLOSED, arrival elsewhere. -/
def Part.limitMoved (p : Part) (leftClosed : Bool) : Part :=
  if p.sluice.state == .closed && leftClosed then
    (p.record .sluiceFault none (some 3)).closeGate .departure
  else p.testArrival

/-- SLUICE_AT_OPEN_ASSERTED (R120). -/
def execSluiceAtOpenAsserted (s : State) : Result :=
  s.act fun p =>
    if p.sluice.atOpen then p else { p with sluice.atOpen := true }.limitMoved false

/-- SLUICE_AT_OPEN_RELEASED (R120). -/
def execSluiceAtOpenReleased (s : State) : Result :=
  s.act fun p =>
    if p.sluice.atOpen then { p with sluice.atOpen := false }.limitMoved false else p

/-- SLUICE_AT_CLOSED_ASSERTED (R120). -/
def execSluiceAtClosedAsserted (s : State) : Result :=
  s.act fun p =>
    if p.sluice.atClosed then p else { p with sluice.atClosed := true }.limitMoved false

/-- SLUICE_AT_CLOSED_RELEASED (R120). -/
def execSluiceAtClosedReleased (s : State) : Result :=
  s.act fun p =>
    if p.sluice.atClosed then { p with sluice.atClosed := false }.limitMoved true else p

/-- The failed travel's value (R124): 1 for an opening, 2 for a closing. -/
def failedTravel : SluiceState → Int
  | .opening => 1
  | .closed | .opened | .closing | .fault => 2

/-- TRAVEL_TIMER_EXPIRY (R124): the travel has failed. -/
def execTravelTimerExpiry (s : State) : Result :=
  s.act fun p =>
    if p.sluice.travel.isSome then
      ((p.sluiceTo .fault).releaseDrive).record .sluiceFault none (some (failedTravel p.sluice.state))
    else p

/-- The answer to a SLUICE_ORDER: state and mode as they stand after it (R126). -/
def Part.sluiceAnswer (p : Part) : Response :=
  .answer [codeByte p.sluice.state.code, codeByte p.sluice.mode.code]

/-- SLUICE_ORDER AUTO (R126). -/
def serveSluiceAuto (p : Part) : Part × Response :=
  let p1 := { p with sluice.mode := .auto }
  (p1, p1.sluiceAnswer)

/-- SLUICE_ORDER KEEP_CLOSED (R126): an open or opening gate is closed at once. -/
def serveSluiceKeepClosed (p : Part) : Part × Response :=
  let p1 := { p with sluice.mode := .keepClosed }
  let p2 :=
    match p.sluice.state with
    | .opened | .opening => p1.closeGate .order
    | .closed | .closing | .fault => p1
  (p2, p2.sluiceAnswer)

/-- SLUICE_ORDER CLEAR (R126): from FAULT the gate is closed; refused STATE elsewhere. -/
def serveSluiceClear (p : Part) : Part × Response :=
  match p.sluice.state with
  | .fault => (p.closeGate .timeoutClear, (p.closeGate .timeoutClear).sluiceAnswer)
  | .closed | .opening | .opened | .closing => (p, .refusal .state)

/-- SLUICE_AUTO (R126). -/
def execSluiceAuto (tag : Byte) (s : State) : Result := s.act (request .sluiceOrder tag serveSluiceAuto)

/-- SLUICE_KEEP_CLOSED (R126). -/
def execSluiceKeepClosed (tag : Byte) (s : State) : Result :=
  s.act (request .sluiceOrder tag serveSluiceKeepClosed)

/-- SLUICE_CLEAR (R126). -/
def execSluiceClear (tag : Byte) (s : State) : Result := s.act (request .sluiceOrder tag serveSluiceClear)

end Sys2Proof.Machine
end

