-- ==== Sys2Proof/Machine/Cleaner.lean ====
section
/-! DEFINITION. The cleaner controller (section 7.2): starts and ends of a rake, its timers and orders. -/

namespace Sys2Proof.Machine

/-- The pause after a completed cycle, in seconds (R130, R131). -/
def pauseSeconds : Nat := 60

/-- A rake starts (R129): RAKE asserted, the raking timer started, interval and pause timers cancelled. -/
def Part.startRake (p : Part) (cause : RakeCause) : Part :=
  { p with
    cleaner :=
      { p.cleaner with
        state := .raking
        cause := some cause
        rake := true
        raking := p.startTimer p.config.station.rakeTimeout
        interval := none
        pause := none } }

/-- The cleaner enters IDLE: RAKE released, the raking timer stopped, the interval timer started with the rake
interval, when not 0 (R130, R132). -/
def Part.cleanerIdle (p : Part) : Part :=
  { p with
    cleaner :=
      { p.cleaner with
        state := .idle
        rake := false
        raking := none
        interval := p.startTimerUnlessZero p.config.station.rakeInterval } }

/-- The value of a SCREEN record of the cleaner: the rake cause code (R130). -/
def Part.rakeValue (p : Part) : Option Int := p.cleaner.cause.map fun c => (c.code : Int)

/-- A rake may start: IDLE, with the mains state OK (R129). -/
def Part.mayRake (p : Part) : Bool := p.cleaner.state == .idle && p.mainsGood

/-- The rack loss of a snapshot stands at or above the clean threshold (R129). -/
def Part.fouledAt (p : Part) (snap : Snapshot) : Bool :=
  match snap.rackLoss with
  | some loss => decide ((p.config.station.cleanThreshold : Int) ≤ loss)
  | none => false

/-- The cleaner controller acts on a snapshot (R129). -/
def Part.cleanerAtSnapshot (p : Part) (snap : Snapshot) : Part :=
  if p.mayRake && p.cleaner.pause.isNone && p.fouledAt snap then p.startRake .loss else p

/-- A mains loss reaches the cleaner (R130): a cycle ends without a record. -/
def Part.cleanerMainsLost (p : Part) : Part :=
  if p.cleaner.state == .raking then p.cleanerIdle else p

/-- RAKE_DONE_ASSERTED (R130). -/
def execRakeDoneAsserted (s : State) : Result :=
  s.act fun p =>
    if p.cleaner.done then p
    else
      let p1 := { p with cleaner.done := true }
      if p.cleaner.state == .raking then
        ({ p1.cleanerIdle with cleaner.pause := p.startTimer pauseSeconds }).record .rakeDone none
          p.rakeValue
      else p1

/-- RAKE_DONE_RELEASED (R130). -/
def execRakeDoneReleased (s : State) : Result := s.act fun p => { p with cleaner.done := false }

/-- RAKING_TIMER_EXPIRY (R130). -/
def execRakingTimerExpiry (s : State) : Result :=
  s.act fun p =>
    if p.cleaner.raking.isSome then
      ({ p with
          cleaner.state := .fault
          cleaner.rake := false
          cleaner.raking := none }).record .rakeFault none p.rakeValue
    else p

/-- INTERVAL_TIMER_EXPIRY (R129): a rake, or, with the mains state not OK, the timer started again. It is started again
too where the cleaner is RAKING or in FAULT, which no rule lets meet a running interval timer (log 34). -/
def execIntervalTimerExpiry (s : State) : Result :=
  s.act fun p =>
    if p.cleaner.interval.isSome then
      if p.mayRake then p.startRake .interval
      else { p with cleaner.interval := p.startTimerUnlessZero p.config.station.rakeInterval }
    else p

/-- PAUSE_TIMER_EXPIRY (R131): nothing of itself. -/
def execPauseTimerExpiry (s : State) : Result := s.act fun p => { p with cleaner.pause := none }

/-- The answer to a RAKE_ORDER (R132). -/
def Part.rakeAnswer (p : Part) : Response := .answer [codeByte p.cleaner.state.code]

/-- RAKE_ORDER START (R132). -/
def serveRakeStart (p : Part) : Part × Response :=
  if p.mayRake then (p.startRake .order, (p.startRake .order).rakeAnswer) else (p, .refusal .state)

/-- RAKE_ORDER CLEAR (R132). -/
def serveRakeClear (p : Part) : Part × Response :=
  match p.cleaner.state with
  | .fault => (p.cleanerIdle, p.cleanerIdle.rakeAnswer)
  | .idle | .raking => (p, .refusal .state)

/-- RAKE_START (R132). -/
def execRakeStart (tag : Byte) (s : State) : Result := s.act (request .rakeOrder tag serveRakeStart)

/-- RAKE_CLEAR (R132). -/
def execRakeClear (tag : Byte) (s : State) : Result := s.act (request .rakeOrder tag serveRakeClear)

end Sys2Proof.Machine
end

