-- ==== Sys2Proof/Machine/Plan.lean ====
section
/-! DEFINITION. The level plan (chapter 8): the clamp of R135, activation, the fallback, and the plan's
requests. -/

namespace Sys2Proof.Machine

/-! ### Targets (R135, R143, R145) -/

/-- The greatest band of the level window (R135). -/
def greatestBand (s : StationRecord) : Int := min 2000 (quotToZero (s.highLevel - s.stopLevel) 2)

/-- A band clamped by R135. With a window under 40 mm it is free (log 42). -/
def clampBand (s : StationRecord) (band : Nat) : Nat := (clampRange 20 (greatestBand s) (band : Int)).toNat

/-- A target level clamped by R135 with the band just applied. With a window under two bands it is free (log 42). -/
def clampTarget (s : StationRecord) (band : Nat) (target : Int) : Int :=
  clampRange (s.stopLevel + band) (s.highLevel - band) target

/-- A target and a band are applied (R135): the band is clamped first. -/
def Part.applyTarget (p : Part) (target : Int) (band : Nat) : Part :=
  let b := clampBand p.config.station band
  { p with
    plan.target := clampTarget p.config.station b target
    plan.band := b }

/-- A plan entry is applied (R143), before the arbiter is told of the override. -/
def Part.applyEntry (p : Part) (e : PlanEntry) : Part :=
  let p1 := p.applyTarget e.target (e.band.getD p.plan.band)
  { p1 with
    plan.budget := e.budget.map (clampNat 0 5000)
    plan.inhibit := e.inhibit.getD false }

/-- The fallback is applied (R145), before the arbiter is told of the override. -/
def Part.applyFallback (p : Part) : Part :=
  let p1 := p.applyTarget p.config.station.fallbackTarget p.config.station.fallbackBand
  { p1 with
    plan.budget := none
    plan.inhibit := false }

/-- The plan's entries replaced, with the plan state that goes with them (R138). -/
def Part.setEntries (p : Part) (es : List PlanEntry) : Part :=
  { p with
    plan.entries := es
    plan.planState := if es.isEmpty then .empty else .waiting }

/-! ### Activation (R142) -/

/-- An entry is due: its activation time is not later than the clock (R142). -/
def PlanEntry.due (clock : Word32) (e : PlanEntry) : Bool := decide (e.time.toNat ≤ clock.toNat)

/-- The records of an activation that removed `removed` entries (R142): PLAN_SKIPPED, PLAN_APPLIED, PLAN_EMPTY. -/
def Part.recordActivation (p : Part) (removed : Nat) : Part :=
  let p1 := if 1 < removed then p.record .planSkipped none (some ((removed - 1 : Nat) : Int)) else p
  let p2 := p1.record .planApplied none (some p.plan.target)
  if p.plan.entries.isEmpty then p2.record .planEmpty none none else p2

/-- Activation (R142): due entries leave from the head, the newest is applied, the records follow, then the arbiter
acts on a changed override (R143). -/
def Part.activate (p : Part) : Part :=
  match (p.plan.entries.takeWhile (PlanEntry.due p.accounting.clock)).getLast? with
  | none => p
  | some newest =>
    (((p.applyEntry newest).setEntries
        (p.plan.entries.dropWhile (PlanEntry.due p.accounting.clock))).recordActivation
      (p.plan.entries.takeWhile (PlanEntry.due p.accounting.clock)).length).reformBudget

/-! ### Requests -/

/-- SET_TARGET (R137). -/
def serveSetTarget (target band : Word16) (p : Part) : Part × Response :=
  let p1 := p.applyTarget target.toInt band.toNat
  (p1, .answer (beInt 2 p1.plan.target ++ beBytes 2 p1.plan.band ++ word16Bytes p1.plan.budget
    ++ [markByte p1.plan.inhibit]))

/-- The first reason that refuses an entry (R139). -/
def Part.addRefusal (p : Part) (e : PlanEntry) : Option Reason :=
  if e.time.toNat ≤ p.accounting.clock.toNat then some .range
  else
    match p.plan.entries.getLast? with
    | some last =>
      if e.time.toNat ≤ last.time.toNat then some .order
      else if 32 ≤ p.plan.entries.length then some .full
      else none
    | none => none

/-- PLAN_ADD (R139). -/
def servePlanAdd (w : PlanWords) (p : Part) : Part × Response :=
  match p.addRefusal (planEntryOf w) with
  | some r => (p, .refusal r)
  | none =>
    let p1 := p.setEntries (p.plan.entries ++ [planEntryOf w])
    (p1, .answer [codeByte p1.plan.entries.length, codeByte p1.plan.planState.code])

/-- PLAN_CLEAR (R140). -/
def servePlanClear (p : Part) : Part × Response :=
  let n := p.plan.entries.length
  let p1 := p.setEntries []
  (if 0 < n then p1.record .planEmpty none (some (n : Int)) else p1, .answer [codeByte n])

/-- The entries of an ASK_PLAN answer: up to 16 from the position onward (R141). -/
def Part.planPage (p : Part) (position : Nat) : List PlanEntry := (p.plan.entries.drop position).take 16

/-- The body of the ASK_PLAN answer (R189). -/
def Part.planBody (p : Part) (position : Byte) : List Byte :=
  beBytes 4 p.accounting.clock.toNat
    ++ [codeByte p.plan.planState.code, codeByte p.plan.entries.length]
    ++ beInt 2 p.plan.target ++ beBytes 2 p.plan.band
    ++ [markByte p.plan.budget.isSome] ++ beBytes 2 (p.plan.budget.getD 0)
    ++ [markByte p.plan.inhibit, position, codeByte (p.planPage position.toNat).length]
    ++ (p.planPage position.toNat).flatMap encodePlanEntry

/-- ASK_PLAN (R141). -/
def serveAskPlan (position : Byte) (p : Part) : Part × Response :=
  if 31 < position.toNat then (p, .refusal .range) else (p, .answer (p.planBody position))

/-- SET_TARGET (R137). -/
def execSetTarget (tag : Byte) (target band : Word16) (s : State) : Result :=
  s.act (request .setTarget tag (serveSetTarget target band))

/-- PLAN_ADD (R139). -/
def execPlanAdd (tag : Byte) (entry : PlanWords) (s : State) : Result :=
  s.act (request .planAdd tag (servePlanAdd entry))

/-- PLAN_CLEAR (R140). -/
def execPlanClear (tag : Byte) (s : State) : Result := s.act (request .planClear tag servePlanClear)

/-- ASK_PLAN (R141). -/
def execAskPlan (tag position : Byte) (s : State) : Result :=
  s.act (request .askPlan tag (serveAskPlan position))

end Sys2Proof.Machine
end

