-- ==== Sys2Proof/Machine/Protection.lean ====
section
/-! DEFINITION. The dispatch controller beside its evaluation: the ranking (R86, R87), the enqueue walk (R85), the
protections and the low-water hold (R88–R90), the FLOAT_HIGH enqueue (R91). -/

namespace Sys2Proof.Machine

/-! ### Ranking (R86, R87) -/

/-- Unit `a` may stand before unit `b` in a ROTATE start order (R86): fewer run seconds, or as many. -/
def runBefore (runSeconds : Six Nat) (a b : UnitNo) : Bool :=
  decide (runSeconds.get a ≤ runSeconds.get b)

/-- The start order that the station record and the run seconds give (R86, R87). Equal run seconds keep the
ascending unit number. -/
def startOrderOf (st : StationRecord) (runSeconds : Six Nat) : List UnitNo :=
  if st.rankingMode.isRotate then sortBy (runBefore runSeconds) UnitNo.all else unitsNumbered st.fixedOrder

/-- The ranking in force is formed (R87). -/
def Part.formRanking (p : Part) : Part :=
  { p with
    dispatcher.startOrder := startOrderOf p.config.station p.accounting.totals.runSeconds }

/-! ### Enqueues (R85) -/

/-- The walk asks unit `u`: AUTO and IDLE (R85). -/
def Part.asksUnit (p : Part) (u : UnitNo) : Bool :=
  (p.unit u).authority == .auto && (p.unit u).state == .idle

/-- Unit `u` is consulted and, where eligible, enqueued with this origin (R85, R158). -/
def Part.consultEnqueue (p : Part) (u : UnitNo) (origin : QueueOrigin) : Part :=
  if p.eligible u false then (p.consult u false).enqueue u origin else p.consult u false

/-- The walk of stages 4 and 5 and of the FLOAT_HIGH enqueue: each eligible AUTO unit in turn (R85). -/
def enqueueAll : List UnitNo → Part → Part
  | [], p => p
  | u :: us, p => enqueueAll us (if p.asksUnit u then p.consultEnqueue u .dispatch else p)

/-- The walk of stage 7: up to the first unit enqueued (R85). -/
def enqueueFirst : List UnitNo → Part → Part
  | [], p => p
  | u :: us, p =>
    if p.asksUnit u then
      if p.eligible u false then p.consultEnqueue u .dispatch
      else enqueueFirst us (p.consult u false)
    else enqueueFirst us p

/-! ### Protections and the hold (R88–R90) -/

/-- The acts of the stop-level and FLOAT_LOW protections (R88, R89): stop orders in ascending unit number, the queue
emptied, the low-water hold set. -/
def Part.protect (p : Part) : Part :=
  { (stopAll .lowWater UnitNo.all p).emptyQueue with dispatcher.hold := true }

/-- The stop-level protection (R88): STOP_LEVEL where the hold was off, recorded after the protection's own records
(log 38). -/
def Part.stopLevelProtection (p : Part) (level : Int) : Part :=
  if p.dispatcher.hold then p.protect else p.protect.record .stopLevel none (some level)

/-- The low-water hold is cleared (R90): the arbiter takes a grant check. -/
def Part.clearHold (p : Part) : Part := { p with dispatcher.hold := false }.grantCheck

/-- The level of a snapshot lets the hold clear (R90): recovered, or absent. -/
def Part.levelRecovered (p : Part) (snap : Snapshot) : Bool :=
  match snap.inner with
  | some level => decide (p.config.station.stopLevel + 100 ≤ level)
  | none => true

/-- The dispatch controller acts on a snapshot (R88, R90). -/
def Part.dispatchAtSnapshot (p : Part) (snap : Snapshot) : Part :=
  match snap.inner.filter fun level => decide (level ≤ p.config.station.stopLevel) with
  | some level => p.stopLevelProtection level
  | none =>
    if p.dispatcher.hold && !snap.floatLow && p.levelRecovered snap then p.clearHold else p

/-! ### FLOAT_HIGH (R91) -/

/-- The inner level of the snapshot in force, where it lies below the target in force (R91). -/
def Part.levelBelowTarget (p : Part) : Option Int :=
  p.innerLevel.filter fun level => decide (level < p.plan.target)

/-- A FLOAT_HIGH assertion is forwarded to the dispatch controller (R91). -/
def Part.floatHighForwarded (p : Part) : Part :=
  match p.levelBelowTarget with
  | some level => p.record .floatGaugeConflict none (some level)
  | none =>
    if p.supervision.mode == .held then p
    else enqueueAll p.formRanking.dispatcher.startOrder p.formRanking

end Sys2Proof.Machine
end

