-- ==== Sys2Proof/Machine/Round.lean ====
section
/-! DEFINITION. The sampling round (chapter 1): samples, channel states and levels, qualities, the rack, the
snapshot and the blocks that act on it, the sampling mode; the float lines; immediate rounds. -/

namespace Sys2Proof.Machine

/-! ### Channels (R1, R2) -/

/-- Why a sample is not valid (R1). -/
def sampleFault (i : Nat) : Option InvalidReason :=
  if i < 3800 then some .wireBreak else if 20500 < i then some .overrange else none

/-- The reason of the most recent invalid sample of a buffer, oldest first (R1). -/
def newestFault : List Nat → Option InvalidReason
  | [] => none
  | i :: rest =>
    match newestFault rest with
    | some r => some r
    | none => sampleFault i

/-- The channel state that a buffer gives (R1). -/
def stateOfBuffer (buffer : List Nat) : ChannelState :=
  if buffer.length < 3 then .init
  else
    match newestFault buffer with
    | some r => .invalid r
    | none => .valid

/-- A sample joins a buffer of at most three (R1). -/
def appendSample (buffer : List Nat) (i : Nat) : List Nat :=
  (if 3 ≤ buffer.length then buffer.tail else buffer) ++ [i]

/-- A channel takes its sample of the round (R1). -/
def Channel.sample (g : GaugeRecord) (i : Nat) (c : Channel) : Channel :=
  if g.fitted then ⟨appendSample c.buffer i, stateOfBuffer (appendSample c.buffer i)⟩
  else ⟨[], .notFitted⟩

/-- The median of three. -/
def median (a b c : Nat) : Nat := max (min a b) (min (max a b) c)

/-- The level of a median current (R2): the whole level rounded, halves away from zero, then clamped. -/
def levelOf (g : GaugeRecord) (i : Nat) : Int :=
  clampInt (-20000) 20000
    (roundHalfAway (g.zero * 16000 + ((clampNat 4000 20000 i : Int) - 4000) * g.span) 16000)

/-- The channel level: of a VALID channel, from the median of its three samples (R2). -/
def Channel.level (g : GaugeRecord) (c : Channel) : Option Int :=
  match c.state, c.buffer with
  | .valid, [a, b, d] => some (levelOf g (median a b d))
  | _, _ => none

/-- The level of a channel of the part. -/
def Part.channelLevel (p : Part) (n : ChannelName) : Option Int :=
  (p.gauge.channels.get n).level (p.config.gauges.get n)

/-- The channels take their samples (R1). -/
def Part.sampleChannels (p : Part) (cur : Currents) : Part :=
  { p with
    gauge.channels :=
      ⟨p.gauge.channels.ga.sample p.config.gauges.ga cur.ga,
       p.gauge.channels.gb.sample p.config.gauges.gb cur.gb,
       p.gauge.channels.go.sample p.config.gauges.go cur.go,
       p.gauge.channels.gs.sample p.config.gauges.gs cur.gs⟩ }

/-! ### Qualities (R5, R6, R8) -/

/-- A held level that is not older than the hold limit (R6). -/
def heldLevel (now : Word32) (limit : Nat) (h : Option HeldLevel) : Option Int :=
  match h with
  | some l => if secondsSince now l.time ≤ limit then some l.level else none
  | none => none

/-- Of two levels the one nearer the held level; the first where both are equally near or none is held (R5). -/
def nearer (held : Option HeldLevel) (a b : Int) : Int :=
  match held with
  | some h => if (a - h.level).natAbs ≤ (b - h.level).natAbs then a else b
  | none => a

/-- What a round finds of a level: its quality, the level, and whether it was derived from valid channels. -/
structure Found (Q : Type) where
  quality : Q
  level : Option Int
  live : Bool

/-- The inner quality and level of a round (R5). -/
def Part.findInner (p : Part) : Found InnerQuality :=
  if p.gauge.channels.ga.state == .init || p.gauge.channels.gb.state == .init then ⟨.init, none, false⟩
  else
    match p.channelLevel .ga, p.channelLevel .gb with
    | some a, some b =>
      if (a - b).natAbs ≤ p.config.station.agreementLimit then ⟨.both, some (quotToZero (a + b) 2), true⟩
      else ⟨.disagree, some (nearer p.gauge.heldInner a b), true⟩
    | some a, none => ⟨.single, some a, true⟩
    | none, some b => ⟨.single, some b, true⟩
    | none, none =>
      match heldLevel p.accounting.uptime p.config.station.holdLimit p.gauge.heldInner with
      | some h => ⟨.held, some h, false⟩
      | none => ⟨.lost, none, false⟩

/-- The outer quality and level of a round (R8). R8 names no quality for a GO that is NOT_FITTED, which only a loaded
image can bring: it is taken as not VALID, like INVALID (log 42). -/
def Part.findOuter (p : Part) : Found OuterQuality :=
  if p.gauge.channels.go.state == .init then ⟨.init, none, false⟩
  else
    match p.channelLevel .go with
    | some o => ⟨.ok, some o, true⟩
    | none =>
      match heldLevel p.accounting.uptime p.config.station.holdLimit p.gauge.heldOuter with
      | some h => ⟨.held, some h, false⟩
      | none => ⟨.lost, none, false⟩

/-- The held level after a round: renewed from valid channels, kept otherwise (R5, R8). -/
def renewHeld {Q : Type} (now : Word32) (f : Found Q) (old : Option HeldLevel) : Option HeldLevel :=
  match f.level with
  | some l => if f.live then some ⟨l, now⟩ else old
  | none => old

/-- The record of a change of inner quality (R7): its code and value, none where the change is silent. -/
def Part.innerEvent (p : Part) (f : Found InnerQuality) : Option (EventCode × Option Int) :=
  if f.quality == p.gauge.innerQuality then none
  else
    match f.quality with
    | .init => none
    | .disagree =>
      some (.innerDisagree,
        match p.channelLevel .ga, p.channelLevel .gb with
        | some a, some b => some (a - b)
        | _, _ => none)
    | .single =>
      if p.gauge.innerQuality == .init then none
      else some (.innerSingle, some (if (p.channelLevel .ga).isSome then 1 else 2))
    | .held => some (.innerHeld, f.level)
    | .lost => some (.innerLost, none)
    | .both => if p.gauge.innerQuality == .init then none else some (.innerRestored, f.level)

/-- The record of a change of outer quality (R8). -/
def Part.outerEvent (p : Part) (f : Found OuterQuality) : Option (EventCode × Option Int) :=
  if f.quality == p.gauge.outerQuality then none
  else
    match f.quality with
    | .init => none
    | .held => some (.outerHeld, f.level)
    | .lost => some (.outerLost, none)
    | .ok => if p.gauge.outerQuality == .init then none else some (.outerRestored, f.level)

/-- A record is appended where there is one. -/
def Part.recordSome (p : Part) (e : Option (EventCode × Option Int)) : Part :=
  match e with
  | some (code, value) => p.record code none value
  | none => p

/-! ### Screen and rack (R9, R10) -/

/-- The screen level of a round: of a VALID GS, with the inner level from live gauges (R9). -/
def Part.findScreen (p : Part) (inner : Found InnerQuality) : Option Int :=
  if inner.live then p.channelLevel .gs else none

/-- The rack loss of a round (R9). -/
def lossOf (screen inner : Option Int) : Option Int :=
  match screen, inner with
  | some s, some i => some (s - i)
  | _, _ => none

/-- One row of the rack table (R10); the state where none fits. -/
def rackRow (st : StationRecord) (loss : Int) : RackState → RackState
  | .clear => if (st.restrictThreshold : Int) ≤ loss then .restrict else .clear
  | .restrict =>
    if (st.tripThreshold : Int) ≤ loss then .trip
    else if loss < (st.restrictThreshold : Int) - 50 then .clear
    else .restrict
  | .trip => if loss < (st.tripThreshold : Int) - 50 then .restrict else .trip

/-- The rack state after a snapshot (R10): the rows applied until none fits. Two rows reach the end, since the row that
leaves a state and the row that leads back to it never fit the same loss. -/
def rackAfter (st : StationRecord) (loss : Option Int) (r : RackState) : RackState :=
  match loss with
  | some l => rackRow st l (rackRow st l r)
  | none => r

/-- The code of a rack record (R10). -/
def rackCode : RackState → EventCode
  | .clear => .rackClear
  | .restrict => .rackRestrict
  | .trip => .rackTrip

/-- The record of a change of the rack state (R10). -/
def rackEvent (old new : RackState) (loss : Option Int) : Option (EventCode × Option Int) :=
  if new == old then none else some (rackCode new, loss)

/-! ### The snapshot (R13) -/

/-- The snapshot that the gauge unit forms from what a round found; its sampling mode is set once the blocks have
acted (R14). -/
def Part.snapshotOf (p : Part) (inner : Found InnerQuality) (outer : Found OuterQuality) : Snapshot :=
  let loss := lossOf (p.findScreen inner) inner.level
  { time := p.accounting.clock
    inner := inner.level
    innerQuality := inner.quality
    outer := outer.level
    outerQuality := outer.quality
    screen := p.findScreen inner
    rackLoss := loss
    rack := rackAfter p.config.station loss p.gauge.rack
    floatHigh := p.gauge.effHigh
    floatLow := p.gauge.effLow
    mode := p.gauge.mode }

/-- The gauge unit forms the snapshot (R5–R10, R13): qualities, held levels, rack, the snapshot put in force,
and the records, inner before outer before rack (log 44). -/
def Part.formSnapshot (p : Part) : Part :=
  let inner := p.findInner
  let outer := p.findOuter
  let snap := p.snapshotOf inner outer
  let p1 :=
    { p with
      gauge :=
        { p.gauge with
          heldInner := renewHeld p.accounting.uptime inner p.gauge.heldInner
          heldOuter := renewHeld p.accounting.uptime outer p.gauge.heldOuter
          innerQuality := inner.quality
          outerQuality := outer.quality
          rack := snap.rack
          snapshot := some snap } }
  ((p1.recordSome (p.innerEvent inner)).recordSome (p.outerEvent outer)).recordSome
    (rackEvent p.gauge.rack snap.rack snap.rackLoss)

/-! ### The blocks act (R13) -/

/-- The dwell of a RUNNING unit at a snapshot (R49): started, kept or cancelled. -/
def Part.dwellAfter (p : Part) (u : UnitNo) (snap : Snapshot) : Option Timer :=
  if limitingInForce snap.outerQuality && (p.curves.get u).limited then
    match (p.unit u).dwellTimer with
    | some t => some t
    | none => p.startTimer (p.unitRecord u).headLimitDwell
  else none

/-- The dwell of unit `u` expires (R50): HEAD_LIMIT_STOP, then its own stop order (log 16). -/
def Part.dwellExpired (p : Part) (u : UnitNo) : Part :=
  ((p.modUnit u fun pu => { pu with dwellTimer := none }).record .headLimitStop (some u)
    (some ((p.curves.get u).head : Int))).stopOrder u .headLimit

/-- Unit controller `u` acts on a snapshot (R49, R50): a dwell of 0 s expires in the event that starts it. -/
def Part.unitAtSnapshot (p : Part) (snap : Snapshot) (u : UnitNo) : Part :=
  if (p.unit u).state == .running then
    let p1 := p.modUnit u fun pu => { pu with dwellTimer := p.dwellAfter u snap }
    if (p.unit u).dwellTimer.isNone && (p.dwellAfter u snap).isSome
        && (p.unitRecord u).headLimitDwell == 0 then p1.dwellExpired u
    else p1
  else p

/-- The unit controllers act on a snapshot (R13), in ascending unit number (log 41). -/
def unitsAtSnapshot (snap : Snapshot) : List UnitNo → Part → Part
  | [], p => p
  | u :: us, p => unitsAtSnapshot snap us (p.unitAtSnapshot snap u)

/-- The arbiter is told that the rack state has become CLEAR (R10). -/
def Part.rackCleared (p : Part) (old new : RackState) : Part :=
  if new == .clear && old != .clear then p.grantCheck else p

/-- The blocks act on the snapshot just formed, in the order of R13; `old` is the rack state before it. -/
def Part.blocksAct (p : Part) (old : RackState) (snap : Snapshot) : Part :=
  unitsAtSnapshot snap UnitNo.all
    ((((((p.formCurves snap).rackCleared old snap.rack).dispatchAtSnapshot snap).sluiceAtSnapshot
      snap).cleanerAtSnapshot snap))

/-! ### The sampling mode (R14) -/

/-- A unit is quiet (R14): IDLE, OFFLINE, or TRIPPED with RUN released. -/
def PumpUnit.quiet (pu : PumpUnit) : Bool :=
  match pu.state with
  | .idle | .offline => true
  | .tripped => !pu.run
  | .queued | .priming | .starting | .running | .stopping | .resting => false

/-- The inner quality and level of a snapshot are quiet (R14). -/
def Part.levelQuiet (p : Part) (snap : Snapshot) : Bool :=
  (snap.innerQuality == .both || snap.innerQuality == .single)
    && match snap.inner with
       | some level => decide (level < p.plan.target - p.plan.band)
       | none => false

/-- The quiet condition (R14). -/
def Part.quiet (p : Part) (snap : Snapshot) : Bool :=
  UnitNo.all.all (fun u => (p.unit u).quiet) && p.arbiter.queue.isEmpty && p.sluiceClosed
    && !p.gauge.effHigh && !p.gauge.effLow && p.mainsGood && p.levelQuiet snap

/-- The sampling mode that a snapshot decides (R14). -/
def Part.modeAfter (p : Part) (snap : Snapshot) : SamplingMode := if p.quiet snap then .slow else .fast

/-- The seconds to the next round (R14). -/
def SamplingMode.period : SamplingMode → Nat
  | .fast => 1
  | .slow => 10

/-- The sampling mode is decided, once the blocks have acted, and the next round set (R14). An enqueue that the blocks
made has its immediate round in this one (R15, log 45). -/
def Part.decideMode (p : Part) (snap : Snapshot) : Part :=
  { p with
    gauge :=
      { p.gauge with
        mode := p.modeAfter snap
        roundTimer := p.startTimer (p.modeAfter snap).period
        snapshot := some { snap with mode := p.modeAfter snap } }
    roundDue := false }

/-- A full sampling round (R1–R14). -/
def Part.round (p : Part) (cur : Currents) : Part :=
  let p1 := p.sampleChannels cur
  let snap := p1.snapshotOf p1.findInner p1.findOuter
  (p1.formSnapshot.blocksAct p.gauge.rack snap).decideMode snap

/-! ### Immediate rounds (R15) -/

/-- An immediate round: the mode set to FAST before it (R15). -/
def Part.immediateRound (p : Part) (cur : Currents) : Part :=
  { p with
    roundDue := false
    gauge.mode := .fast }.round cur

/-- The immediate round that an enqueue of this event has triggered, if any (R15). -/
def Part.takeDueRound (p : Part) (cur : Currents) : Part :=
  if p.roundDue then p.immediateRound cur else p

/-- The currents of a round in an event whose command carries none; they are free (log 4). -/
def Part.unseenCurrents (p : Part) : Currents :=
  ⟨Config.unseenCurrent p.freeCount 0, Config.unseenCurrent p.freeCount 1, Config.unseenCurrent p.freeCount 2,
   Config.unseenCurrent p.freeCount 3⟩

/-- The same where the command carries no currents: a start that failed at once was enqueued again (R15, R30). -/
def Part.takeUnseenRound (p : Part) : Part :=
  if p.roundDue then { p with freeCount := p.freeCount + 1 }.immediateRound p.unseenCurrents else p

/-! ### Float lines (R12) -/

/-- The effective float pair from the filtered lines (R12). -/
def GaugeUnit.formFloats (g : GaugeUnit) : GaugeUnit :=
  { g with
    effHigh := g.floatHigh && !g.floatLow
    effLow := g.floatLow }

/-- The filtered float lines move, and the effective pair with them (R12). -/
def Part.setFloats (p : Part) (high low : Bool) : Part :=
  { p with gauge := { p.gauge with floatHigh := high, floatLow := low }.formFloats }

/-- FLOAT_HIGH is asserted (R12): recorded before the dispatch controller acts on it (R91, log 37). -/
def Part.floatHighOn (p : Part) : Part :=
  let p1 := p.setFloats true p.gauge.floatLow
  if p.gauge.floatLow then p1.record .floatConflict none none
  else (p1.record .floatHigh none none).floatHighForwarded

/-- FLOAT_LOW is asserted (R12): the protection of R89 follows in either case, after FLOAT_CONFLICT too (log 37). -/
def Part.floatLowOn (p : Part) : Part :=
  let p1 := (p.setFloats p.gauge.floatHigh true).record .floatLow none none
  (if p.gauge.floatHigh then p1.record .floatConflict none none else p1).protect

/-- FLOAT_LOW is released (R12): with FLOAT_HIGH asserted, FLOAT_HIGH is recorded and then its assertion forwarded (log
37). -/
def Part.floatLowOff (p : Part) : Part :=
  let p1 := p.setFloats p.gauge.floatHigh false
  if p.gauge.floatHigh then (p1.record .floatHigh none none).floatHighForwarded else p1

/-! ### The rows of the gauge unit -/

/-- SAMPLING_ROUND (R13). -/
def execSamplingRound (cur : Currents) (s : State) : Result := s.act fun p => p.round cur

/-- FLOAT_HIGH_ASSERTED (R12, R15). -/
def execFloatHighAsserted (cur : Currents) (s : State) : Result :=
  s.act fun p => if p.gauge.floatHigh then p else p.floatHighOn.immediateRound cur

/-- FLOAT_HIGH_RELEASED (R12, R15). -/
def execFloatHighReleased (cur : Currents) (s : State) : Result :=
  s.act fun p =>
    if p.gauge.floatHigh then (p.setFloats false p.gauge.floatLow).immediateRound cur else p

/-- FLOAT_LOW_ASSERTED (R12, R15). -/
def execFloatLowAsserted (cur : Currents) (s : State) : Result :=
  s.act fun p => if p.gauge.floatLow then p else p.floatLowOn.immediateRound cur

/-- FLOAT_LOW_RELEASED (R12, R15). -/
def execFloatLowReleased (cur : Currents) (s : State) : Result :=
  s.act fun p => if p.gauge.floatLow then p.floatLowOff.immediateRound cur else p

/-- DWELL_TIMER_EXPIRY (R50). -/
def execDwellTimerExpiry (u : UnitNo) (s : State) : Result :=
  s.act fun p =>
    if (p.unit u).state == .running && (p.unit u).dwellTimer.isSome then
      (p.dwellExpired u).takeUnseenRound
    else p

/-! ### ASK_GAUGES (R15, R186) -/

/-- One channel of the answer (R186). -/
def Part.channelBytes (p : Part) (n : ChannelName) : List Byte :=
  [markByte (p.config.gauges.get n).fitted, codeByte (p.gauge.channels.get n).state.code,
    codeByte (p.gauge.channels.get n).state.reasonCode] ++ levelBytes (p.channelLevel n)

/-- The snapshot part of the answer (R186). -/
def snapshotBytes (s : Snapshot) : List Byte :=
  beBytes 4 s.time.toNat ++ levelBytes s.inner ++ [codeByte s.innerQuality.code] ++ levelBytes s.outer
    ++ [codeByte s.outerQuality.code] ++ levelBytes s.screen
    ++ beInt 4 (s.rackLoss.getD (-2147483648))
    ++ [codeByte s.rack.code, markByte s.floatHigh, markByte s.floatLow, codeByte s.mode.code]

/-- The body of the ASK_GAUGES answer (R186), for the snapshot in force. -/
def Part.gaugesBody (p : Part) : List Byte :=
  (match p.gauge.snapshot with
   | some s => snapshotBytes s
   | none => []) ++ p.channelBytes .ga ++ p.channelBytes .gb ++ p.channelBytes .go ++ p.channelBytes .gs

/-- ASK_GAUGES (R15): the immediate round is taken before the answer is formed. -/
def serveAskGauges (cur : Currents) (p : Part) : Part × Response :=
  (p.immediateRound cur, .answer (p.immediateRound cur).gaugesBody)

/-- ASK_GAUGES (R186). -/
def execAskGauges (tag : Byte) (cur : Currents) (s : State) : Result :=
  s.act (request .askGauges tag (serveAskGauges cur))

end Sys2Proof.Machine
end

