-- ==== Sys2Proof/Machine/ArbiterRows.lean ====
section
/-! DEFINITION. The rows of the start arbiter (chapter 6) but for SET_BUDGET. An immediate round follows where a start
that failed at once was enqueued again (R15, R30). -/

namespace Sys2Proof.Machine

/-- STAGGER_TIMER_EXPIRY (R101): the timer stops and a grant check is taken. -/
def execStaggerTimerExpiry (s : State) : Result :=
  s.act fun p =>
    if p.arbiter.stagger.isSome then ({ p with arbiter.stagger := none }.grantCheck).takeUnseenRound else p

/-- SHED_DELAY_TIMER_EXPIRY (R115): a further shed while committed load is still above the budget, the timer
started again. -/
def execShedDelayTimerExpiry (s : State) : Result :=
  s.act fun p =>
    if p.arbiter.shedDelay.isSome then
      if p.arbiter.effective < p.arbiter.committed then (p.startShedDelay.shedOne).takeUnseenRound
      else { p with arbiter.shedDelay := none }
    else p

/-- CURTAIL_ASSERTED (R110). -/
def execCurtailAsserted (s : State) : Result :=
  s.act fun p => if p.arbiter.curtail then p else (p.curtailMoved true .curtailOn).takeUnseenRound

/-- CURTAIL_RELEASED (R110). -/
def execCurtailReleased (s : State) : Result :=
  s.act fun p => if p.arbiter.curtail then (p.curtailMoved false .curtailOff).takeUnseenRound else p

end Sys2Proof.Machine
end

