-- ==== Sys2Proof/Machine/Evaluation.lean ====
section
/-! DEFINITION. The dispatch evaluation (sections 5.1 and 5.2). -/

namespace Sys2Proof.Machine

/-! ### Stage 1 (R75) -/

/-- The reserved load of a delivering unit is set to its power estimate (R75). -/
def Part.reestimateUnit (p : Part) (u : UnitNo) : Part :=
  if (p.unit u).delivering then p.setReserved u (p.power u) else p

/-- Each delivering unit of a list sets its reserved load to its power estimate (R45, R75). -/
def reestimateUnits : List UnitNo → Part → Part
  | [], p => p
  | u :: us, p => reestimateUnits us (p.reestimateUnit u)

/-- Re-estimation (R75): the six changes reach the arbiter together. -/
def Part.reestimate (p : Part) : Part := (reestimateUnits UnitNo.all p).loadsMoved

/-! ### Stage 2 (R76) -/

/-- The gate holds (R76); without a snapshot the inner quality is taken as INITIAL (log 34). -/
def Part.gated (p : Part) : Bool :=
  p.supervision.mode == .held || !p.mainsGood || p.dispatcher.hold
    || match p.gauge.snapshot with
       | some snap => snap.innerQuality == .init
       | none => true

/-! ### Stages 3 to 6 (R77–R80) -/

/-- Unit `u` is AUTO and RUNNING. -/
def Part.autoRunning (p : Part) (u : UnitNo) : Bool :=
  (p.unit u).authority == .auto && (p.unit u).state == .running

/-- Unit `u` is AUTO, RUNNING and past its min-run (R80, R84). -/
def Part.stoppable (p : Part) (u : UnitNo) : Bool := p.autoRunning u && (p.unit u).minRunElapsed

/-- A stop order of this origin to a unit, where there is one. -/
def Part.stopSome (p : Part) (u : Option UnitNo) (origin : StopOrigin) : Part :=
  match u with
  | some u => p.stopOrder u origin
  | none => p

/-- A DISPATCH entry: origin DISPATCH, and its unit AUTO (R83). -/
def Part.isDispatchEntry (p : Part) (e : QueueEntry) : Bool :=
  e.origin == .dispatch && (p.unit e.unit).authority == .auto

/-- The stop candidate (R84). -/
def Part.stopCandidate (p : Part) : Option UnitNo := p.stopRanking.find? p.stoppable

/-- The withdrawal of every DISPATCH entry (R80): the entries leave and their units enter IDLE together, then one
grant check where the head was among them (log 20). -/
def Part.withdrawAll (p : Part) : Part :=
  (idleUnits (p.arbiter.queue.filter p.isDispatchEntry)
      (p.setQueue (p.arbiter.queue.filter fun e => !p.isDispatchEntry e))).checkIf
    ((p.arbiter.queue.head?.map p.isDispatchEntry).getD false)

/-- Stage 6 (R80). -/
def Part.drawdownStage (p : Part) : Part :=
  p.withdrawAll.stopSome p.withdrawAll.stopCandidate .dispatch

/-! ### Stage 7 (R81–R84) -/

/-- The supplied flow (R81). -/
def Part.suppliedFlow (p : Part) : Nat :=
  (UnitNo.all.map fun u => if (p.unit u).delivering then p.flow u else 0).sum

/-- A DISPATCH entry waits in the queue. -/
def Part.dispatchWaits (p : Part) : Bool := p.arbiter.queue.any p.isDispatchEntry

/-- The start test (R82). -/
def Part.startTest (p : Part) (snap : Snapshot) (level : Int) (demand : Nat) : Bool :=
  decide (p.plan.target < level)
    && decide (p.suppliedFlow + p.config.station.hysteresis < demand)
    && !p.dispatchWaits && snap.rack == .clear && p.sluiceClosed

/-- The withdraw test (R83). -/
def Part.withdrawTest (p : Part) (demand : Nat) : Bool :=
  p.dispatchWaits && decide (demand ≤ p.suppliedFlow)

/-- The newest DISPATCH entry is withdrawn (R83): its unit returns to IDLE, and a new head is checked (R98). -/
def Part.withdrawNewest (p : Part) : Part :=
  match (p.arbiter.queue.filter p.isDispatchEntry).getLast? with
  | some e => ((p.dropEntry e.unit).enterUnit e.unit .idle).checkIf (p.headIs e.unit)
  | none => p

/-- The flow of the stop candidate: its estimate while it delivers, 0 otherwise (R84). -/
def Part.candidateFlow (p : Part) (u : UnitNo) : Nat := if (p.unit u).delivering then p.flow u else 0

/-- The stop test passes for unit `u` (R84). -/
def Part.stopTest (p : Part) (demand : Nat) (u : UnitNo) : Bool :=
  decide (demand + p.config.station.hysteresis + p.candidateFlow u ≤ p.suppliedFlow)

/-- Stage 7 (R81): the demand is kept; then the first of the three tests that holds decides the one act. -/
def Part.demandStage (p : Part) (snap : Snapshot) (level : Int) : Part :=
  let demand := demandOf p.estimator.inflow p.config.station.area p.config.station.drawdown level
    p.plan.target
  let p1 := { p with dispatcher.demand := demand }
  if p1.startTest snap level demand then enqueueFirst p1.dispatcher.startOrder p1
  else if p1.withdrawTest demand then p1.withdrawNewest
  else p1.stopSome (p1.stopCandidate.filter (p1.stopTest demand)) .dispatch

/-- Stages 5 to 7, with an inner level present (R79–R81). -/
def Part.levelStages (p : Part) (snap : Snapshot) (level : Int) : Part :=
  if p.config.station.highLevel ≤ level then enqueueAll p.dispatcher.startOrder p
  else if level ≤ p.plan.target - p.plan.band then p.drawdownStage
  else p.demandStage snap level

/-- Stages 3 to 7 on a snapshot (R77–R81). -/
def Part.openStages (p : Part) (snap : Snapshot) : Part :=
  if snap.rack == .trip then p.stopSome (p.stopRanking.find? p.autoRunning) .rack
  else
    match snap.inner with
    | none => if p.gauge.effHigh then enqueueAll p.dispatcher.startOrder p else p
    | some level => p.levelStages snap level

/-- The stages of an evaluation (R74). -/
def Part.stages (p : Part) : Part :=
  if p.reestimate.gated then p.reestimate
  else
    match p.reestimate.gauge.snapshot with
    | some snap => p.reestimate.openStages snap
    | none => p.reestimate

/-- The evaluation timer is started with D (R74). -/
def Part.startEvaluation (p : Part) : Part :=
  { p with dispatcher.timer := p.startTimer p.config.station.evalInterval }

/-- DISPATCH_EVALUATION (R74): the timer again, the ranking (R87), the stages, and the immediate round that its
enqueues trigger (R15). -/
def execDispatchEvaluation (cur : Currents) (s : State) : Result :=
  s.act fun p => (p.startEvaluation.formRanking.stages).takeDueRound cur

end Sys2Proof.Machine
end

