-- ==== Sys2Proof/Machine/Units.lean ====
section
/-! DEFINITION. The rows of the unit controllers (chapter 3): line events, timer expiries, unit orders, ASK_UNIT. An
immediate round follows where the arbiter's checks made a start that failed at once and was enqueued again (R15,
R30). -/

namespace Sys2Proof.Machine

/-! ### Line events (R33, R35, R41–R43, R47) -/

/-- Unit `u` enters RUNNING at the RUN assertion in STARTING (R35). -/
def Part.startEnds (p : Part) (u : UnitNo) : Part :=
  let p1 := (p.enterUnit u .running).modUnit u fun pu =>
    { pu with
      minRunTimer := if (p.unitRecord u).minRun = 0 then none else p.startTimer (p.unitRecord u).minRun
      minRunElapsed := pu.minRunElapsed || (p.unitRecord u).minRun == 0
      retriesLeft := (p.unitRecord u).startRetries }
  (p1.record .unitRunning (some u)
    ((p.unit u).lastGrant.map fun t => (secondsSince p.accounting.uptime t : Int))).freeSlot u

/-- An uncommanded run (R42): the unit is TRIPPED, its entry or its slot given up, and its load reserved. -/
def Part.uncommandedRun (p : Part) (u : UnitNo) : Part :=
  let p1 := ((p.dropEntry u).freeSlot u).tripUnit u .uncommandedRun
  let p2 := (p1.modUnit u fun pu => { pu with retryPending := false }).record .uncommandedRun (some u)
    (some ((p.unit u).state.code : Int))
  (((p2.checkIf (p.headIs u)).setReserved u (p.power u))).loadsMoved

/-- RUN of unit `u` is asserted, the line being set already (R35, R42, R43, R47). -/
def Part.runOn (p : Part) (u : UnitNo) : Part :=
  match (p.unit u).state with
  | .offline | .idle | .queued | .priming | .resting => p.uncommandedRun u
  | .starting => p.startEnds u
  | .running =>
    if (p.unit u).runLossTimer.isSome then
      ((p.modUnit u fun pu => { pu with runLossTimer := none }).setReserved u (p.power u)).loadsMoved
    else p
  | .stopping => p
  | .tripped => (p.setReserved u (p.power u)).loadsMoved

/-- The run-loss timer of unit `u` expires (R43): LOST_RUN. -/
def Part.runLost (p : Part) (u : UnitNo) : Part := (p.tripUnit u .lostRun).record .lostRun (some u) none

/-- A run-loss timer of 0 s expires in the event that starts it (R30, log 28). -/
def Part.runLostIfZero (p : Part) (u : UnitNo) : Part :=
  if (p.unitRecord u).runLossDelay = 0 then p.runLost u else p

/-- RUN of unit `u` is released, the line being set already (R40, R43, R47). -/
def Part.runOff (p : Part) (u : UnitNo) : Part :=
  match (p.unit u).state with
  | .running =>
    (((p.modUnit u fun pu =>
        { pu with runLossTimer := p.startTimer (p.unitRecord u).runLossDelay }).setReserved u 0).runLostIfZero
      u).loadsFell
  | .stopping => p.endStop u
  | .tripped => (p.setReserved u 0).loadsFell
  | .offline | .idle | .queued | .priming | .starting | .resting => p

/-- TRIP of unit `u` trips it (R41) from a state other than OFFLINE and TRIPPED: a load without RUN is given up
(R48). -/
def Part.motorTrip (p : Part) (u : UnitNo) : Part :=
  let p1 := ((p.dropEntry u).freeSlot u).tripUnit u .motorTrip
  let p2 := (p1.modUnit u fun pu =>
      { pu with
        retryPending := false
        stopOrigin := none }).record .motorTrip (some u) (some ((p.unit u).state.code : Int))
  (if (p.unit u).run then p2.checkIf (p.headIs u)
   else (p2.checkIf (p.headIs u)).setReserved u 0).loadsFell

/-- TRIP of unit `u` is asserted, the line being set already (R41). -/
def Part.tripOn (p : Part) (u : UnitNo) : Part :=
  match (p.unit u).state with
  | .offline => p.record .motorTrip (some u) (some 0)
  | .tripped => p.record .motorTrip (some u) (some 8)
  | .idle | .queued | .priming | .starting | .running | .stopping | .resting => p.motorTrip u

/-- PRIMED of unit `u` is asserted, the line being set already (R33). A start timer of 0 s expires in the event that
starts it (R30, log 28). -/
def Part.primedOn (p : Part) (u : UnitNo) : Part :=
  match (p.unit u).state with
  | .priming =>
    if (p.unitRecord u).startTimeout = 0 then (p.enterStarting u).failStart u .startFail .startFail
    else p.enterStarting u
  | .offline | .idle | .queued | .starting | .running | .stopping | .resting | .tripped => p

/-- RUN_ASSERTED (R42). -/
def execRunAsserted (u : UnitNo) (s : State) : Result :=
  s.act fun p =>
    if (p.unit u).run then p
    else ((p.modUnit u fun pu => { pu with run := true }).runOn u).takeUnseenRound

/-- RUN_RELEASED (R43). -/
def execRunReleased (u : UnitNo) (s : State) : Result :=
  s.act fun p =>
    if (p.unit u).run then ((p.modUnit u fun pu => { pu with run := false }).runOff u).takeUnseenRound
    else p

/-- TRIP_ASSERTED (R41). -/
def execTripAsserted (u : UnitNo) (s : State) : Result :=
  s.act fun p =>
    if (p.unit u).trip then p
    else ((p.modUnit u fun pu => { pu with trip := true }).tripOn u).takeUnseenRound

/-- TRIP_RELEASED (R41): the line alone. -/
def execTripReleased (u : UnitNo) (s : State) : Result :=
  s.act fun p => p.modUnit u fun pu => { pu with trip := false }

/-- PRIMED_ASSERTED (R33). -/
def execPrimedAsserted (u : UnitNo) (s : State) : Result :=
  s.act fun p =>
    if (p.unit u).primed then p
    else ((p.modUnit u fun pu => { pu with primed := true }).primedOn u).takeUnseenRound

/-- PRIMED_RELEASED (R33): the line alone. -/
def execPrimedReleased (u : UnitNo) (s : State) : Result :=
  s.act fun p => p.modUnit u fun pu => { pu with primed := false }

/-! ### Timer expiries -/

/-- PRIME_TIMER_EXPIRY (R36): PRIME_FAIL. -/
def execPrimeTimerExpiry (u : UnitNo) (cur : Currents) (s : State) : Result :=
  s.act fun p =>
    if (p.unit u).state == .priming && (p.unit u).primeTimer.isSome then
      (p.failStart u .primeFail .primeFail).takeDueRound cur
    else p

/-- START_TIMER_EXPIRY (R36): START_FAIL. -/
def execStartTimerExpiry (u : UnitNo) (cur : Currents) (s : State) : Result :=
  s.act fun p =>
    if (p.unit u).state == .starting && (p.unit u).startTimer.isSome then
      (p.failStart u .startFail .startFail).takeDueRound cur
    else p

/-- STOP_TIMER_EXPIRY (R40). -/
def execStopTimerExpiry (u : UnitNo) (s : State) : Result :=
  s.act fun p =>
    if (p.unit u).state == .stopping && (p.unit u).stopTimer.isSome then p.stopFails u else p

/-- REST_TIMER_EXPIRY (R37). -/
def execRestTimerExpiry (u : UnitNo) (cur : Currents) (s : State) : Result :=
  s.act fun p =>
    if (p.unit u).state == .resting && (p.unit u).restTimer.isSome then
      (p.endRest u).takeDueRound cur
    else p

/-- MIN_RUN_TIMER_EXPIRY (R38). -/
def execMinRunTimerExpiry (u : UnitNo) (s : State) : Result :=
  s.act fun p =>
    if (p.unit u).state == .running && (p.unit u).minRunTimer.isSome then
      p.modUnit u fun pu => { pu with minRunTimer := none, minRunElapsed := true }
    else p

/-- RUN_LOSS_TIMER_EXPIRY (R43): LOST_RUN. -/
def execRunLossTimerExpiry (u : UnitNo) (s : State) : Result :=
  s.act fun p =>
    if (p.unit u).state == .running && (p.unit u).runLossTimer.isSome then p.runLost u else p

/-! ### Unit orders (R54–R56) -/

/-- The answer to a UNIT_ORDER: the unit, its state and authority as they stand after the order (R54). -/
def Part.unitAnswer (p : Part) (u : UnitNo) : Response :=
  .answer [codeByte u.number, codeByte (p.unit u).state.code, codeByte (p.unit u).authority.code]

/-- An order to the unit that a byte numbers; RANGE where it numbers none (R54). -/
def forUnit (n : Byte) (order : UnitNo → Part → Part × Response) (p : Part) : Part × Response :=
  match UnitNo.ofNumber n.toNat with
  | some u => order u p
  | none => (p, .refusal .range)

/-- A taken order: its effect, and the answer after it (R54). -/
def taken (u : UnitNo) (p : Part) : Part × Response := (p, p.unitAnswer u)

/-- The enabled flag of unit `u` in the working copy. -/
def Part.setEnabled (p : Part) (u : UnitNo) (b : Bool) : Part :=
  { p with
    config.units := p.config.units.set u { p.config.units.get u with enabled := b } }

/-- Unit `u` leaves the restart set (R155). -/
def Part.leaveRestartSet (p : Part) (u : UnitNo) : Part :=
  { p with supervision.restartSet := p.supervision.restartSet.filter fun v => v != u }

/-- The authority of unit `u` (R53). -/
def Part.setAuthority (p : Part) (u : UnitNo) (a : Authority) : Part :=
  p.modUnit u fun pu => { pu with authority := a }

/-- ENABLE (R55). -/
def orderEnable (u : UnitNo) (p : Part) : Part × Response :=
  match (p.unit u).state with
  | .offline =>
    taken u
      (((p.setEnabled u true).modUnit u fun pu =>
        { pu with
          fault := none
          retriesLeft := (p.unitRecord u).startRetries
          retryPending := false }).enterUnit u .idle)
  | .idle | .queued | .priming | .starting | .running | .stopping | .resting | .tripped =>
    (p, .refusal .state)

/-- DISABLE is taken in this state (R54). -/
def PumpUnit.takesDisable (pu : PumpUnit) : Bool :=
  match pu.state with
  | .idle | .queued | .resting => true
  | .tripped => !pu.run
  | .offline | .priming | .starting | .running | .stopping => false

/-- DISABLE, where taken (R55). -/
def Part.disabled (p : Part) (u : UnitNo) : Part :=
  ((((((p.dropEntry u).modUnit u fun pu =>
      { pu with
        retryPending := false
        fault := none
        stopOrigin := none }).setEnabled u false).enterUnit u .offline).leaveRestartSet u).checkIf
    (p.headIs u))

/-- DISABLE (R55). -/
def orderDisable (u : UnitNo) (p : Part) : Part × Response :=
  if (p.unit u).takesDisable then taken u (p.disabled u) else (p, .refusal .state)

/-- HAND_START (R56): STATE unless IDLE; a consultation; LIMIT where it finds the unit ineligible (log 19). -/
def orderHandStart (u : UnitNo) (p : Part) : Part × Response :=
  if (p.unit u).state != .idle then (p, .refusal .state)
  else if p.eligible u false then
    taken u (((p.consult u false).setAuthority u .hand).enqueue u .hand)
  else (p.consult u false, .refusal .limit)

/-- What HAND_STOP does by state (R56). -/
def Part.handStopped (p : Part) (u : UnitNo) : Part :=
  match (p.unit u).state with
  | .queued => ((p.dropEntry u).enterUnit u .idle).checkIf (p.headIs u)
  | .priming | .starting | .running => p.stopOrder u .hand
  | .resting => p.modUnit u fun pu => { pu with retryPending := false }
  | .offline | .idle | .stopping | .tripped => p

/-- HAND_STOP (R56). -/
def orderHandStop (u : UnitNo) (p : Part) : Part × Response :=
  taken u (((p.setAuthority u .hand).leaveRestartSet u).handStopped u)

/-- AUTO (R56). -/
def orderAuto (u : UnitNo) (p : Part) : Part × Response := taken u (p.setAuthority u .auto)

/-- CLEAR is taken: TRIPPED with TRIP and RUN released (R54). -/
def PumpUnit.takesClear (pu : PumpUnit) : Bool := pu.state == .tripped && !pu.trip && !pu.run

/-- CLEAR, where taken (R56). -/
def Part.cleared (p : Part) (u : UnitNo) : Part :=
  let p1 := (p.modUnit u fun pu =>
      { pu with
        fault := none
        retriesLeft := (p.unitRecord u).startRetries }).record .unitCleared (some u)
    ((p.unit u).fault.map fun f => (f.code : Int))
  if (p.unitRecord u).enabled then (p1.enterResting u).restIfZero u else p1.enterUnit u .offline

/-- CLEAR (R56). -/
def orderClear (u : UnitNo) (p : Part) : Part × Response :=
  if (p.unit u).takesClear then taken u (p.cleared u) else (p, .refusal .state)

/-- ENABLE (R55). -/
def execEnable (tag n : Byte) (s : State) : Result :=
  s.act (request .unitOrder tag (forUnit n orderEnable))

/-- DISABLE (R55). -/
def execDisable (tag n : Byte) (s : State) : Result :=
  s.act fun p => (request .unitOrder tag (forUnit n orderDisable) p).takeUnseenRound

/-- HAND_START (R56): the immediate round of its enqueue follows the answer (R15, log 18). -/
def execHandStart (tag n : Byte) (cur : Currents) (s : State) : Result :=
  s.act fun p => (request .unitOrder tag (forUnit n orderHandStart) p).takeDueRound cur

/-- HAND_STOP (R56). -/
def execHandStop (tag n : Byte) (s : State) : Result :=
  s.act fun p => (request .unitOrder tag (forUnit n orderHandStop) p).takeUnseenRound

/-- UNIT_AUTO (R56). -/
def execUnitAuto (tag n : Byte) (s : State) : Result :=
  s.act (request .unitOrder tag (forUnit n orderAuto))

/-- UNIT_CLEAR (R56). -/
def execUnitClear (tag n : Byte) (s : State) : Result :=
  s.act (request .unitOrder tag (forUnit n orderClear))

/-! ### ASK_UNIT (R57, R187) -/

/-- An uptime with its presence mark before it; 0 when absent (R187). -/
def uptimeBytes (o : Option Word32) : List Byte :=
  markByte o.isSome :: beBytes 4 ((o.map BitVec.toNat).getD 0)

/-- The body of the ASK_UNIT answer (R187). -/
def Part.unitBody (p : Part) (u : UnitNo) : List Byte :=
  let pu := p.unit u
  let d := p.curves.get u
  [codeByte u.number, codeByte pu.state.code, codeByte pu.authority.code,
      codeByte ((pu.fault.map FaultCode.code).getD 0), codeByte pu.retriesLeft,
      markByte pu.retryPending, markByte pu.minRunElapsed,
      codeByte ((pu.stopOrigin.map StopOrigin.code).getD 0)]
    ++ uptimeBytes pu.lastGrant ++ [codeByte pu.history.length] ++ uptimeBytes pu.history.head?
    ++ beBytes 2 pu.reserved
    ++ [markByte pu.delivering, markByte pu.startOut, markByte pu.primeOut, markByte pu.airvalveOut,
        markByte pu.run, markByte pu.trip, markByte pu.primed]
    ++ beBytes 2 d.head ++ [codeByte d.basis.code] ++ beBytes 2 d.flow ++ beBytes 2 d.power
    ++ [markByte d.limited]

/-- ASK_UNIT (R57): the history is consulted, then the unit reported. -/
def orderAskUnit (u : UnitNo) (p : Part) : Part × Response :=
  (p.consult u false, .answer ((p.consult u false).unitBody u))

/-- ASK_UNIT (R57). -/
def execAskUnit (tag n : Byte) (s : State) : Result := s.act (request .askUnit tag (forUnit n orderAskUnit))

end Sys2Proof.Machine
end

