-- ==== Sys2Proof/Machine/Supervision.lean ====
section
/-! DEFINITION. The supervision controller (chapter 9): the entry into AUTONOMOUS, SET_MODE, the mains loss and
return, the restart set and the restart; RESTART_PART's request. -/

namespace Sys2Proof.Machine

/-! ### Control modes (R148, R150) -/

/-- Every unit becomes AUTO (R53, R148). -/
def Part.allAuto (p : Part) : Part :=
  { p with
    units := Six.ofFn fun u => { p.units.get u with authority := .auto } }

/-- The entry into AUTONOMOUS (R148): its acts in the order of R148's list, AUTONOMY_ENTERED last, so after what the
arbiter records when the fallback clears an override (R145, log 39). -/
def Part.enterAutonomous (p : Part) : Part :=
  let p1 :=
    { p with
      supervision.mode := .autonomous
      supervision.autonomousSince := some p.accounting.uptime
      supervision.timer := none }
  (p1.allAuto.applyFallback.reformBudget).record .autonomyEntered none
    (some (p.supervision.mode.code : Int))

/-- SUPERVISION_TIMER_EXPIRY (R148). -/
def execSupervisionTimerExpiry (s : State) : Result :=
  s.act fun p => if p.supervision.timer.isSome then p.enterAutonomous.takeUnseenRound else p

/-- The answer to a SET_MODE: the mode after it (R150). -/
def Part.modeAnswer (p : Part) : Response := .answer [codeByte p.supervision.mode.code]

/-- The control mode set and the change recorded (R150). -/
def Part.setMode (p : Part) (m : ControlMode) (code : EventCode) : Part :=
  { p with supervision.mode := m }.record code none none

/-- SET_MODE HOLD (R150). A request is served in SUPERVISED or HELD (R149). -/
def serveHold (p : Part) : Part × Response :=
  match p.supervision.mode with
  | .supervised => (p.setMode .held .holdOn, (p.setMode .held .holdOn).modeAnswer)
  | .held | .autonomous => (p, .refusal .state)

/-- SET_MODE RELEASE (R150). -/
def serveRelease (p : Part) : Part × Response :=
  match p.supervision.mode with
  | .held => (p.setMode .supervised .holdOff, (p.setMode .supervised .holdOff).modeAnswer)
  | .supervised | .autonomous => (p, .refusal .state)

/-- SET_MODE_HOLD (R150). -/
def execSetModeHold (tag : Byte) (s : State) : Result := s.act (request .setMode tag serveHold)

/-- SET_MODE_RELEASE (R150). -/
def execSetModeRelease (tag : Byte) (s : State) : Result := s.act (request .setMode tag serveRelease)

/-! ### The restart set (R154) -/

/-- A unit that held the slot or was delivering when the loss was taken; a RUNNING unit whose run-loss timer runs
counts as delivering (R44, R154). -/
def Part.servedAtLoss (p : Part) (u : UnitNo) : Bool :=
  p.arbiter.slot == some u || (p.unit u).delivering
    || ((p.unit u).state == .running && (p.unit u).runLossTimer.isSome)

/-- Unit `a` stands before unit `b` in grant order (R154): by last grant, oldest first, those without one last. -/
def Part.grantedBefore (p : Part) (a b : UnitNo) : Bool :=
  match (p.unit a).lastGrant, (p.unit b).lastGrant with
  | some s, some t =>
    decide (secondsSince p.accounting.uptime t ≤ secondsSince p.accounting.uptime s)
  | _, none => true
  | none, some _ => false

/-- A list of units with those of another appended that it does not hold yet. -/
def appendNew (acc : List UnitNo) : List UnitNo → List UnitNo
  | [] => acc
  | u :: us => appendNew (if acc.contains u then acc else acc ++ [u]) us

/-- The units of RESTART entries, in queue order (R154). -/
def Part.restartEntries (p : Part) : List UnitNo :=
  (p.arbiter.queue.filter fun e => e.origin == .restart).map (·.unit)

/-- The restart set rebuilt at a mains loss (R154). -/
def Part.rebuiltRestartSet (p : Part) : List UnitNo :=
  appendNew
    (appendNew (sortBy p.grantedBefore (UnitNo.all.filter p.servedAtLoss)) p.restartEntries)
    p.supervision.restartSet

/-! ### Mains loss (R153) -/

/-- Every reserved load is set to 0 (R153). -/
def Part.zeroLoads (p : Part) : Part :=
  { p with
    units := Six.ofFn fun u => { p.units.get u with reserved := 0 } }

/-- Steps 1 to 5 of a mains loss (R153). -/
def Part.mainsLoss (p : Part) : Part :=
  let p1 :=
    { p with
      supervision.restartSet := p.rebuiltRestartSet
      supervision.settle := none
      supervision.mains := .lost
      supervision.lostAt := some p.accounting.uptime }
  ((((stopAll .mains UnitNo.all p1).emptyQueue).zeroLoads).loadsFell).record .mainsLost none
    (some (p.rebuiltRestartSet.length : Int))

/-- MAINS_OK_RELEASED (R153): the loss with its record, then sluice and cleaner told (log 40), then the immediate round
(R15). -/
def execMainsOkReleased (cur : Currents) (s : State) : Result :=
  s.act fun p =>
    if p.supervision.mainsOk then
      ((({ p with supervision.mainsOk := false }.mainsLoss.sluiceMainsLost).cleanerMainsLost)).immediateRound
        cur
    else p

/-! ### Mains return (R156, R158) -/

/-- The mains returns (R156): SETTLING, the settle timer started, MAINS_BACK. -/
def Part.mainsBack (p : Part) : Part :=
  { p with
    supervision.mains := .settling
    supervision.settle := p.startTimer p.config.station.settleTime }.record .mainsBack none
    (p.supervision.lostAt.map fun t => (secondsSince p.accounting.uptime t : Int))

/-- MAINS_OK_ASSERTED (R156). -/
def execMainsOkAsserted (cur : Currents) (s : State) : Result :=
  s.act fun p =>
    if p.supervision.mainsOk then p
    else ({ p with supervision.mainsOk := true }.mainsBack).immediateRound cur

/-- Step 6 of the restart (R158): each IDLE unit of the set consulted and, where eligible, enqueued; the number
enqueued is counted on. -/
def restartWalk : List UnitNo → Nat → Part → Part × Nat
  | [], n, p => (p, n)
  | u :: us, n, p =>
    if (p.unit u).state == .idle then
      restartWalk us (if p.eligible u false then n + 1 else n) (p.consultEnqueue u .restart)
    else restartWalk us n p

/-- Steps 1 to 4 of the restart (R158). -/
def Part.mainsOkAgain (p : Part) : Part :=
  (({ p with
        supervision.mains := .ok
        supervision.settle := none }.reestimate).sluiceMainsOk).grantCheck

/-- Step 7 of the restart (R158): the set emptied, RESTART_BEGUN recorded. -/
def Part.restartBegun (p : Part) (n : Int) : Part :=
  { p with supervision.restartSet := [] }.record .restartBegun none (some n)

/-- The restart at settle expiry (R158). -/
def Part.restart (p : Part) : Part :=
  let p1 := p.mainsOkAgain
  if p1.gauge.effLow then p1.restartBegun (-1)
  else
    (restartWalk p1.supervision.restartSet 0 p1).1.restartBegun
      ((restartWalk p1.supervision.restartSet 0 p1).2 : Int)

/-- SETTLE_TIMER_EXPIRY (R158), and the immediate round of its enqueues (R15). -/
def execSettleTimerExpiry (cur : Currents) (s : State) : Result :=
  s.act fun p =>
    if p.supervision.mains == .settling && p.supervision.settle.isSome then p.restart.takeDueRound cur
    else p

/-! ### RESTART_PART (R160) -/

/-- RESTART_PART (R160): BUSY while SAVING; otherwise an empty answer, and the restart after it. -/
def serveRestartPart (p : Part) : Part × Response :=
  match p.store.state with
  | .saving => (p, .refusal .busy)
  | .idle => (p.modLink fun l => { l with after := some .restart }, .answer [])

/-- RESTART_PART (R160). -/
def execRestartPart (tag : Byte) (s : State) : Result := s.act (request .restartPart tag serveRestartPart)

end Sys2Proof.Machine
end

