-- ==== Sys2Proof/Machine/Accounting.lean ====
section
/-! DEFINITION. The accounting unit (chapter 10): the accounting second, ASK_COUNTERS, SET_CLOCK,
ZERO_COUNTERS. -/

namespace Sys2Proof.Machine

/-- A volume that saturates at 2^48 − 1 litres (R165). -/
def addSaturating48 (n k : Nat) : Nat := min (n + k) 281474976710655

/-- The litres unit `u` pumps in this second: its flow estimate while it delivers (R165). -/
def Part.pumped (p : Part) (u : UnitNo) : Nat := if (p.unit u).delivering then p.flow u else 0

/-- The litres the station pumps in this second (R165). -/
def Part.pumpedSum (p : Part) : Nat := (UnitNo.all.map p.pumped).sum

/-- The run seconds of unit `u` after this second (R164). -/
def Part.runSecondsNext (p : Part) (u : UnitNo) : Nat :=
  if (p.unit u).state == .running then addSaturating32 (p.accounting.totals.runSeconds.get u) 1
  else p.accounting.totals.runSeconds.get u

/-- The totals after the integrations of a second (R164, R165). -/
def Part.integrated (p : Part) : Totals :=
  { p.accounting.totals with
    runSeconds := Six.ofFn p.runSecondsNext
    volumes := Six.ofFn fun u => addSaturating48 (p.accounting.totals.volumes.get u) (p.pumped u)
    stationVolume := p.accounting.totals.stationVolume + BitVec.ofNat 48 p.pumpedSum }

/-- The accounting second before the plan is told (R163–R165, R167): clock and uptime, totals, interval volume
(R60), counter image. -/
def Part.countSecond (p : Part) : Part :=
  { p with
    accounting :=
      { clock := p.accounting.clock + 1#32
        uptime := p.accounting.uptime + 1#32
        timer := some ⟨1, p.accounting.uptime + 1#32⟩
        totals := p.integrated
        image := ⟨p.accounting.clock + 1#32, p.accounting.uptime + 1#32, p.integrated⟩ }
    estimator.intervalVolume := p.estimator.intervalVolume + p.pumpedSum }

/-- ACCOUNTING_SECOND (R163). -/
def execAccountingSecond (s : State) : Result :=
  s.act fun p => p.countSecond.activate.takeUnseenRound

/-- The counters of one unit in the answer (R167). -/
def unitCounters (t : Totals) (u : UnitNo) : List Byte :=
  beBytes 4 (t.runSeconds.get u) ++ beBytes 6 (t.volumes.get u) ++ beBytes 4 (t.startTotals.get u)

/-- The body of the ASK_COUNTERS answer (R167). -/
def countersBody (i : CounterImage) : List Byte :=
  beBytes 4 i.clock.toNat ++ beBytes 4 i.uptime.toNat ++ beBytes 6 i.totals.stationVolume.toNat
    ++ UnitNo.all.flatMap (unitCounters i.totals)

/-- ASK_COUNTERS (R167). -/
def serveAskCounters (p : Part) : Part × Response := (p, .answer (countersBody p.accounting.image))

/-- SET_CLOCK (R168): the clock set, the plan told, the clock and uptime answered. -/
def serveSetClock (clock : Word32) (p : Part) : Part × Response :=
  let p1 := { p with accounting.clock := clock }.activate
  (p1, .answer (beBytes 4 p1.accounting.clock.toNat ++ beBytes 4 p1.accounting.uptime.toNat))

/-- ZERO_COUNTERS (R169). -/
def serveZeroCounters (p : Part) : Part × Response :=
  ({ p with
      accounting :=
        { p.accounting with
          totals := Totals.zero
          image := { p.accounting.image with totals := Totals.zero } } }, .answer [])

/-- ASK_COUNTERS (R167). -/
def execAskCounters (tag : Byte) (s : State) : Result := s.act (request .askCounters tag serveAskCounters)

/-- SET_CLOCK (R168). -/
def execSetClock (tag : Byte) (clock : Word32) (s : State) : Result :=
  s.act fun p => (request .setClock tag (serveSetClock clock) p).takeUnseenRound

/-- ZERO_COUNTERS (R169). -/
def execZeroCounters (tag : Byte) (s : State) : Result := s.act (request .zeroCounters tag serveZeroCounters)

end Sys2Proof.Machine
end

