-- ==== Sys2Proof/Machine/Events.lean ====
section
/-! DEFINITION. The requests of the event queue (chapter 12): TAKE_EVENTS, SET_ALERTS, CLEAR_ALERTS. -/

namespace Sys2Proof.Machine

/-- The records a TAKE_EVENTS removes: the count clamped to 1–19 (R192). -/
def takeCount (count : Byte) : Nat := clampNat 1 19 count.toNat

/-- TAKE_EVENTS (R192). -/
def serveTakeEvents (count : Byte) (p : Part) : Part × Response :=
  let returned := p.events.records.take (takeCount count)
  let held := p.events.records.drop (takeCount count)
  ({ p with events.records := held },
    .answer ([codeByte returned.length, codeByte held.length] ++ returned.flatMap encodeRecord))

/-- ALERT is brought up to date (R195). -/
def Part.updateAlert (p : Part) : Part :=
  { p with events.alert := alertOf p.events.flags p.config.enables }

/-- CLEAR_ALERTS (R193). -/
def serveClearAlerts (marks : Byte) (p : Part) : Part × Response :=
  let p1 := { p with events.flags := p.events.flags &&& ~~~marks }.updateAlert
  (p1, .answer [p1.events.flags, p1.config.enables])

/-- SET_ALERTS (R194): enables that differ from those in force wait for the end of the reply. -/
def serveSetAlerts (marks : Byte) (p : Part) : Part × Response :=
  (if marks == p.config.enables then p
   else p.modLink fun l => { l with after := some (.newEnables marks) },
    .answer [marks, p.events.flags])

/-- TAKE_EVENTS (R192). -/
def execTakeEvents (tag count : Byte) (s : State) : Result :=
  s.act (request .takeEvents tag (serveTakeEvents count))

/-- SET_ALERTS (R194). -/
def execSetAlerts (tag marks : Byte) (s : State) : Result :=
  s.act (request .setAlerts tag (serveSetAlerts marks))

/-- CLEAR_ALERTS (R193). -/
def execClearAlerts (tag marks : Byte) (s : State) : Result :=
  s.act (request .clearAlerts tag (serveClearAlerts marks))

end Sys2Proof.Machine
end

