-- ==== Sys2Proof/Machine/Store.lean ====
section
/-! DEFINITION. The configuration requests (chapter 13): the record writes with the clamps and refusals of the
rules that own their fields, ASK_CONFIG, SET_BUDGET, SAVE_CONFIG and the end of an attempt. -/

namespace Sys2Proof.Machine

/-! ### Common parts of a write (R198) -/

/-- The answer to a taken write or a reading: the selector, then the record of the working copy (R198). -/
def Part.recordAnswer (p : Part) (type inst : Byte) (r : RecordName) : Response :=
  .answer (type :: inst :: p.config.encodeRecordOf r)

/-- A write of the record that a selector names, with the tests of R198 in their order: the selector (RANGE), the
length (LENGTH), then the owner's rules. `write` takes the record's bytes. -/
def writeRecord (type inst : Byte) (record : List Byte)
    (write : RecordName → List Byte → Part → Part × Option Reason) (p : Part) : Part × Response :=
  match recordNamed type.toNat inst.toNat with
  | none => (p, .refusal .range)
  | some r =>
    if record.length ≠ r.length then (p, .refusal .length)
    else
      match write r record p with
      | (_, some reason) => (p, .refusal reason)
      | (p1, none) => (p1, p1.recordAnswer type inst r)

/-! ### The link record (R173) -/

/-- A link record that passes: the working copy takes it, and settings that differ from those in force wait for the
end of the reply (R173). -/
def Part.writeLink (p : Part) (l : LinkSettings) : Part :=
  let p1 := { p with config.link := l }
  if l == p.link.settings then p1 else p1.modLink fun k => { k with after := some (.newSettings l) }

/-- A write of the link record (R173). -/
def takeLinkRecord (record : List Byte) (p : Part) : Part × Option Reason :=
  if (decodeLink record).named then (p.writeLink (decodeLink record), none) else (p, some .range)

/-! ### The station record (R4, R17, R69, R94, R111, R127, R131, R144, R151) -/

/-- A setting of which 0 means "never": 0 stays 0, any other value is clamped (R131, R151). -/
def clampUnlessZero (lo hi n : Nat) : Nat := if n = 0 then 0 else clampNat lo hi n

/-- The clamped station record. Levels of R94 are refused, not clamped. -/
def clampStation (r : StationRecord) : StationRecord :=
  let openMargin := clampNat 50 2000 r.openMargin
  { r with
    area := clampNat 100 500000 r.area
    drawdown := clampNat 60 7200 r.drawdown
    interval := clampNat 30 300 r.interval
    window := clampNat 2 15 r.window
    evalInterval := clampNat 10 120 r.evalInterval
    hysteresis := clampNat 0 5000 r.hysteresis
    stagger := clampNat 5 120 r.stagger
    stationBudget := clampNat 0 5000 r.stationBudget
    curtailedBudget := clampNat 0 5000 r.curtailedBudget
    shedDelay := clampNat 2 60 r.shedDelay
    settleTime := clampNat 5 300 r.settleTime
    supervisionTimeout := clampUnlessZero 30 3600 r.supervisionTimeout
    holdLimit := clampNat 10 900 r.holdLimit
    agreementLimit := clampNat 10 500 r.agreementLimit
    fallbackHead := clampNat 0 30000 r.fallbackHead
    openMargin := openMargin
    closeMargin := clampNat 20 (openMargin - 10) r.closeMargin
    travelTimeout := clampNat 10 600 r.travelTimeout
    cleanThreshold := clampNat 10 2000 r.cleanThreshold
    restrictThreshold := clampNat 10 2000 r.restrictThreshold
    tripThreshold := clampNat 10 2000 r.tripThreshold
    rakeTimeout := clampNat 10 900 r.rakeTimeout
    rakeInterval := clampUnlessZero 600 86400 r.rakeInterval
    fallbackTarget := clampInt (-20000) 20000 r.fallbackTarget
    fallbackBand := clampNat 20 2000 r.fallbackBand }

/-- A level lies within −20,000 to +20,000 mm. -/
def levelInRange (l : Int) : Bool := decide (-20000 ≤ l) && decide (l ≤ 20000)

/-- A fixed order holds each of the unit numbers 1 to 6 exactly once (R94). -/
def orderValid (order : List Byte) : Bool :=
  decide (order.length = 6) && UnitNo.all.all fun u => order.contains (codeByte u.number)

/-- A clamped station record passes the structural rules of R4 and R94. -/
def stationValid (r : StationRecord) : Bool :=
  levelInRange r.stopLevel && levelInRange r.highLevel && decide (200 ≤ r.highLevel - r.stopLevel)
    && r.rankingMode.named && orderValid r.fixedOrder && decide (r.cleanThreshold < r.restrictThreshold)
    && decide (r.restrictThreshold < r.tripThreshold)

/-- The estimator restarts where E or n changed (R69). -/
def Part.estimatorFollows (p : Part) (old : StationRecord) : Part :=
  if p.config.station.interval = old.interval ∧ p.config.station.window = old.window then p
  else { p with estimator := p.freshEstimator }

/-- The evaluation timer starts again where D changed (R94). -/
def Part.evaluationFollows (p : Part) (old : StationRecord) : Part :=
  if p.config.station.evalInterval = old.evalInterval then p else p.startEvaluation

/-- The supervision timer starts again, or stops, where its timeout changed (R151). -/
def Part.supervisionFollows (p : Part) (old : StationRecord) : Part :=
  if p.config.station.supervisionTimeout = old.supervisionTimeout then p else p.restartSupervision

/-- The interval timer of an IDLE cleaner starts again, or stops, where the rake interval changed (R131). -/
def Part.rakeFollows (p : Part) (old : StationRecord) : Part :=
  if p.config.station.rakeInterval = old.rakeInterval || p.cleaner.state != .idle then p
  else { p with cleaner.interval := p.startTimerUnlessZero p.config.station.rakeInterval }

/-- A station record that passes (R198): the working copy takes it, the configured mark is set, and its side effects
follow (log 27), the effective budget last (R111). -/
def Part.writeStation (p : Part) (r : StationRecord) : Part :=
  (((({ p with
          config.station := r
          store.configured := true }.estimatorFollows p.config.station).evaluationFollows
      p.config.station).supervisionFollows p.config.station).rakeFollows p.config.station).reformBudget

/-- A write of the station record: its clamps, then its structural rules. -/
def takeStationRecord (record : List Byte) (p : Part) : Part × Option Reason :=
  let r := clampStation (decodeStation record)
  if stationValid r then (p.writeStation r, none) else (p, some .range)

/-! ### Gauge records (R3) -/

/-- A zero and a span clamped into their ranges (R3). -/
def clampGauge (r : GaugeRecord) : GaugeRecord :=
  { r with
    zero := clampInt (-20000) 20000 r.zero
    span := clampNat 100 40000 r.span }

/-- GA and GO are always fitted (R3). -/
def mustBeFitted : ChannelName → Bool
  | .ga | .go => true
  | .gb | .gs => false

/-- The state of a channel whose record has just been written (R3). -/
def freshChannel (fitted : Bool) : Channel := ⟨[], if fitted then .init else .notFitted⟩

/-- The rack is CLEAR at once (R3): RACK_CLEAR where it was not, and the arbiter told. -/
def Part.rackForcedClear (p : Part) : Part :=
  if p.gauge.rack == .clear then p
  else ({ p with gauge.rack := .clear }.record .rackClear none none).grantCheck

/-- A gauge record that passes (R3). -/
def Part.writeGauge (p : Part) (c : ChannelName) (r : GaugeRecord) : Part :=
  let p1 :=
    { p with
      config.gauges := p.config.gauges.set c r
      gauge.channels := p.gauge.channels.set c (freshChannel r.fitted) }
  if c == .gs && !r.fitted then p1.rackForcedClear else p1

/-- A write of a gauge record (R3). -/
def takeGaugeRecord (c : ChannelName) (record : List Byte) (p : Part) : Part × Option Reason :=
  let r := clampGauge (decodeGauge record)
  if mustBeFitted c && !r.fitted then (p, some .range) else (p.writeGauge c r, none)

/-! ### Unit records (R17, R18, R29) -/

/-- The timing fields, starts and retries, and the loss, clamped into their ranges (R17, R29). -/
def clampUnit (r : UnitRecord) : UnitRecord :=
  { r with
    loss := clampNat 0 3000 r.loss
    minRun := clampNat 0 3600 r.minRun
    minRest := clampNat 0 3600 r.minRest
    maxStarts := clampNat 1 12 r.maxStarts
    primeTimeout := clampNat 10 600 r.primeTimeout
    startTimeout := clampNat 2 60 r.startTimeout
    stopTimeout := clampNat 2 120 r.stopTimeout
    runLossDelay := clampNat 1 10 r.runLossDelay
    headLimitDwell := clampNat 0 300 r.headLimitDwell
    startRetries := clampNat 0 2 r.startRetries }

/-- A unit record that passes (R29), and the unit's derived values at once (R18). -/
def Part.writeUnit (p : Part) (u : UnitNo) (r : UnitRecord) : Part :=
  { p with config.units := p.config.units.set u r }.reformCurve u

/-- A write of a unit record (R29): STATE unless OFFLINE; then the outlet and the curve (RANGE). -/
def takeUnitRecord (u : UnitNo) (record : List Byte) (p : Part) : Part × Option Reason :=
  if (p.unit u).state != .offline then (p, some .state)
  else
    let r := decodeUnit record
    if r.outlet.named && curveValid r.curve then (p.writeUnit u (clampUnit r), none)
    else (p, some .range)

/-! ### The requests -/

/-- The write of the record named (R198). -/
def takeRecord (r : RecordName) (record : List Byte) (p : Part) : Part × Option Reason :=
  match r with
  | .link => takeLinkRecord record p
  | .station => takeStationRecord record p
  | .gauge c => takeGaugeRecord c record p
  | .unit u => takeUnitRecord u record p

/-- WRITE_CONFIG (R198). -/
def serveWriteConfig (type inst : Byte) (record : List Byte) (p : Part) : Part × Response :=
  writeRecord type inst record takeRecord p

/-- ASK_CONFIG (R198). -/
def serveAskConfig (type inst : Byte) (p : Part) : Part × Response :=
  match recordNamed type.toNat inst.toNat with
  | some r => (p, p.recordAnswer type inst r)
  | none => (p, .refusal .range)

/-- WRITE_CONFIG_LINK (R173). -/
def execWriteConfigLink (tag inst : Byte) (record : List Byte) (s : State) : Result :=
  s.act (request .writeConfig tag (serveWriteConfig 0#8 inst record))

/-- WRITE_CONFIG_STATION (R198). -/
def execWriteConfigStation (tag inst : Byte) (record : List Byte) (s : State) : Result :=
  s.act fun p => (request .writeConfig tag (serveWriteConfig 1#8 inst record) p).takeUnseenRound

/-- WRITE_CONFIG_GAUGE (R3). -/
def execWriteConfigGauge (tag inst : Byte) (record : List Byte) (s : State) : Result :=
  s.act fun p => (request .writeConfig tag (serveWriteConfig 2#8 inst record) p).takeUnseenRound

/-- WRITE_CONFIG_UNIT (R29). -/
def execWriteConfigUnit (tag inst : Byte) (record : List Byte) (s : State) : Result :=
  s.act (request .writeConfig tag (serveWriteConfig 3#8 inst record))

/-- ASK_CONFIG (R198). -/
def execAskConfig (tag type inst : Byte) (s : State) : Result :=
  s.act (request .askConfig tag (serveAskConfig type inst))

/-! ### SET_BUDGET (R109) -/

/-- SET_BUDGET (R109): the station budget of the working copy, clamped, and the effective budget formed afresh. -/
def serveSetBudget (budget : Word16) (p : Part) : Part × Response :=
  let p1 := { p with config.station.stationBudget := clampNat 0 5000 budget.toNat }.reformBudget
  (p1, .answer (beBytes 2 p1.config.station.stationBudget ++ beBytes 2 p1.arbiter.effective
    ++ beBytes 2 p1.arbiter.committed))

/-- SET_BUDGET (R109). -/
def execSetBudget (tag : Byte) (budget : Word16) (s : State) : Result :=
  s.act fun p => (request .setBudget tag (serveSetBudget budget) p).takeUnseenRound

/-! ### Saving (R199, R200) -/

/-- The answer to SAVE_CONFIG: store state and last save result (R199). -/
def Part.saveAnswer (p : Part) : Response :=
  .answer [codeByte p.store.state.code, codeByte p.store.lastResult.code]

/-- A save begins (R199): the save copy taken, the image erased (log 14), the first attempt. -/
def Part.beginSave (p : Part) : Part :=
  { p with
    store :=
      { p.store with
        image := []
        state := .saving
        saveCopy := some p.config
        attempts := 1 } }

/-- SAVE_CONFIG (R199). -/
def serveSaveConfig (p : Part) : Part × Response :=
  match p.store.state with
  | .saving => (p, .refusal .busy)
  | .idle =>
    if p.store.configured then (p.beginSave, p.beginSave.saveAnswer) else (p, .refusal .notConfigured)

/-- SAVE_CONFIG (R199). -/
def execSaveConfig (tag : Byte) (s : State) : Result := s.act (request .saveConfig tag serveSaveConfig)

/-- The save ends (R200): the store IDLE with this result, the save copy dropped. -/
def Store.ended (st : Store) (result : SaveResult) (image : List Byte) : Store :=
  { st with
    image := image
    state := .idle
    saveCopy := none
    lastResult := result }

/-- The verify passed (R200): the image holds the save copy and its check. -/
def Part.savePassed (p : Part) : Part :=
  { p with
    store := p.store.ended .ok ((p.store.saveCopy.map encodeImage).getD p.store.image) }.record
      .storeSaved none (some (p.store.attempts : Int))

/-- The verify failed (R200): a further attempt with a fresh erase, or, after the third, FAILED with whatever that
attempt left (log 11). -/
def Part.saveFailed (p : Part) : Part :=
  if p.store.attempts < 3 then
    { p with
      store.attempts := p.store.attempts + 1
      store.image := [] }
  else
    { p with
      store := p.store.ended .failed (Config.failedSaveImage p.freeCount)
      freeCount := p.freeCount + 1 }.record .storeFailed none (some 3)

/-- SAVE_ATTEMPT_COMPLETION (R200). -/
def execSaveAttemptCompletion (passed : Bool) (s : State) : Result :=
  s.act fun p =>
    match p.store.state with
    | .saving => if passed then p.savePassed else p.saveFailed
    | .idle => p

end Sys2Proof.Machine
end

