-- ==== Sys2Proof/Machine/Station.lean ====
section
/-! DEFINITION. ASK_STATION (R183, R188): the station answer, and the link error flags cleared once it is
formed. -/

namespace Sys2Proof.Machine

/-- The seconds left on a timer, absent when it is stopped (R185); `k` free values have been used before it in the
event. -/
def Part.timerLeft (p : Part) (k : Nat) (t : Option Timer) : Option Nat :=
  t.map (secondsLeft p.accounting.uptime (p.freeCount + k))

/-- A queue entry of the answer: unit, origin, age (R99, R188). -/
def Part.entryBytes (p : Part) (e : QueueEntry) : List Byte :=
  [codeByte e.unit.number, codeByte e.origin.code]
    ++ beBytes 4 (secondsSince p.accounting.uptime e.queuedAt)

/-- `n` queue entries of the answer, 0 beyond the queue (R188). -/
def Part.entriesBytes (p : Part) : Nat → List QueueEntry → List Byte
  | 0, _ => []
  | n + 1, [] => [0#8, 0#8, 0#8, 0#8, 0#8, 0#8] ++ p.entriesBytes n []
  | n + 1, e :: es => p.entryBytes e ++ p.entriesBytes n es

/-- Bytes 0 to 16: the supervision controller (R162). -/
def Part.supervisionBytes (p : Part) : List Byte :=
  [codeByte p.supervision.mode.code] ++ word16Bytes (p.timerLeft 0 p.supervision.timer)
    ++ [codeByte p.supervision.mains.code] ++ word16Bytes (p.timerLeft 1 p.supervision.settle)
    ++ secondsBytes (p.supervision.lostAt.map (secondsSince p.accounting.uptime))
    ++ [codeByte p.supervision.restartSet.length] ++ encodeUnits 6 p.supervision.restartSet

/-- Bytes 17 to 67: the start arbiter (R117). -/
def Part.arbiterBytes (p : Part) : List Byte :=
  [codeByte p.arbiter.shed.code] ++ beBytes 2 p.arbiter.committed ++ beBytes 2 p.arbiter.effective
    ++ beBytes 2 p.config.station.stationBudget ++ beBytes 2 p.config.station.curtailedBudget
    ++ [markByte p.arbiter.curtail, markByte p.plan.budget.isSome, codeByte (unitField p.arbiter.slot),
        markByte p.arbiter.stagger.isSome, markByte p.arbiter.shedDelay.isSome,
        codeByte p.arbiter.queue.length]
    ++ p.entriesBytes 6 p.arbiter.queue

/-- Bytes 68 to 85: the dispatch controller (R95) and the demand estimator (R72). -/
def Part.dispatchBytes (p : Part) : List Byte :=
  [markByte p.dispatcher.hold] ++ beBytes 2 p.dispatcher.demand
    ++ [codeByte p.config.station.rankingMode.code] ++ encodeUnits 6 p.dispatcher.startOrder
    ++ [codeByte p.estimator.state.code] ++ beBytes 2 p.estimator.inflow
    ++ [codeByte p.estimator.ring.length] ++ beBytes 4 p.estimator.intervalVolume

/-- Bytes 86 to 99: sluice and cleaner (R134), store and link error flags (R183). -/
def Part.machineBytes (p : Part) : List Byte :=
  [codeByte p.sluice.state.code, codeByte p.sluice.mode.code, markByte p.sluice.waiting,
    codeByte ((p.sluice.cause.map CloseCause.code).getD 0), markByte p.sluice.atOpen,
    markByte p.sluice.atClosed, codeByte p.cleaner.state.code,
    codeByte ((p.cleaner.cause.map RakeCause.code).getD 0), markByte p.cleaner.interval.isSome,
    markByte p.cleaner.pause.isSome, markByte p.cleaner.done, codeByte p.store.state.code,
    codeByte p.store.lastResult.code, codeByte p.link.flags.toNat]

/-- The body of the ASK_STATION answer (R188). -/
def Part.stationBody (p : Part) : List Byte :=
  p.supervisionBytes ++ p.arbiterBytes ++ p.dispatchBytes ++ p.machineBytes

/-- ASK_STATION (R183): the flags are cleared once the answer is formed; two free values are used (log 8). -/
def serveAskStation (p : Part) : Part × Response :=
  ({ p with
      link.flags := LinkFlags.none
      freeCount := p.freeCount + 2 }, .answer p.stationBody)

/-- ASK_STATION (R183). -/
def execAskStation (tag : Byte) (s : State) : Result := s.act (request .askStation tag serveAskStation)

end Sys2Proof.Machine
end

