-- ==== Sys2Proof/Machine/Reset.lean ====
section
/-! DEFINITION. The two resets (R197 and each block's own reset rule), and the end of a reply with its after-reply
action (R182). -/

namespace Sys2Proof.Machine

/-! ### Each block after a reset -/

/-- The gauge unit after a reset, before its first round (R16). -/
def GaugeUnit.afterReset (g : Four GaugeRecord) (l : FieldLines) : GaugeUnit :=
  GaugeUnit.formFloats
    { channels :=
        ⟨freshChannel g.ga.fitted, freshChannel g.gb.fitted, freshChannel g.go.fitted,
         freshChannel g.gs.fitted⟩
      heldInner := none
      heldOuter := none
      innerQuality := .init
      outerQuality := .init
      rack := .clear
      floatHigh := l.floatHigh
      floatLow := l.floatLow
      effHigh := false
      effLow := false
      mode := .fast
      roundTimer := none
      snapshot := none }

/-- A unit controller after a reset, before its lines act (R58); RESTART_PART keeps the history (R59). -/
def PumpUnit.afterReset (r : UnitRecord) (l : UnitLines) (history : List Word32) : PumpUnit :=
  { PumpUnit.atReset with
    state := if r.enabled then .idle else .offline
    retriesLeft := r.startRetries
    history := history
    run := l.run
    trip := l.trip
    primed := l.primed }

/-- The sluice state that the limit lines of a reset give (R128). -/
def sluiceStateAt (l : FieldLines) : SluiceState :=
  if l.sluiceAtClosed && !l.sluiceAtOpen then .closed
  else if l.sluiceAtOpen && !l.sluiceAtClosed then .opened
  else .closing

/-- The sluice controller after a reset (R128). Waiting for mains is no in CLOSED and OPEN (log 43). -/
def Sluice.afterReset (l : FieldLines) : Sluice where
  state := sluiceStateAt l
  mode := .auto
  travel := none
  waiting := sluiceStateAt l == .closing
  cause := if sluiceStateAt l == .closing then some .reset else none
  driveOpen := false
  driveClose := false
  atOpen := l.sluiceAtOpen
  atClosed := l.sluiceAtClosed

/-- The link controller after a reset (R174). -/
def Link.afterReset (l : LinkSettings) : Link where
  rx := .hunting
  discarding := false
  buffer := []
  gap := none
  flags := LinkFlags.none
  settings := l
  reply := []
  after := none
  direction := false

/-- The configuration store after a reset (R197, R200). -/
def Store.afterReset (st : Store) : Store where
  image := st.image
  state := .idle
  saveCopy := none
  attempts := 0
  lastResult := .none
  configured := (loadImage st.image).isSome

/-- The accounting unit after a power-on reset (R170). -/
def Accounting.afterPowerOn : Accounting :=
  ⟨0#32, 0#32, some ⟨1, 0#32⟩, Totals.zero, ⟨0#32, 0#32, Totals.zero⟩⟩

/-- The event queue after a reset, before its first record (R196). -/
def EventQueue.afterReset (restart : Bool) (enables : Byte) (q : EventQueue) : EventQueue :=
  if restart then { q with alert := alertOf q.flags enables } else ⟨[], 0#8, false⟩

/-! ### The reset -/

/-- The working copy that a load gives: the image, or the defaults (R197). -/
def loadedConfig (image : List Byte) : WorkingCopy := (loadImage image).getD WorkingCopy.default

/-- First part of a reset: what the other blocks' values are formed from. -/
def Part.resetBase (p : Part) (restart : Bool) (l : FieldLines) : Part :=
  { p with
    config := loadedConfig p.store.image
    store := p.store.afterReset
    accounting := if restart then p.accounting else Accounting.afterPowerOn
    gauge := GaugeUnit.afterReset (loadedConfig p.store.image).gauges l
    sluice := Sluice.afterReset l
    link := Link.afterReset (loadedConfig p.store.image).link
    events := p.events.afterReset restart (loadedConfig p.store.image).enables
    units := Six.ofFn fun u =>
      PumpUnit.afterReset ((loadedConfig p.store.image).units.get u) (l.units.get u)
        (if restart then (p.units.get u).history else [])
    roundDue := false }

/-- The start arbiter after a reset (R118). -/
def Part.resetArbiter (p : Part) (l : FieldLines) : Part :=
  { p with arbiter := ⟨[], none, none, 0, 0, .normal, none, l.curtail⟩ }.formBudget

/-- The supervision controller after a reset (R159). -/
def Part.resetSupervision (p : Part) (l : FieldLines) : Part :=
  { p with
    supervision :=
      { mode := .supervised
        timer := p.startTimerUnlessZero p.config.station.supervisionTimeout
        autonomousSince := none
        mains := if l.mainsOk then .settling else .lost
        settle := if l.mainsOk then p.startTimer p.config.station.settleTime else none
        lostAt := none
        restartSet := []
        mainsOk := l.mainsOk } }

/-- The level plan after a reset (R146). -/
def Part.resetPlan (p : Part) : Part := (p.setEntries []).applyFallback

/-- The curve table (R28), estimator (R71), dispatch controller (R96) and cleaner (R133) after a reset. -/
def Part.resetRest (p : Part) (l : FieldLines) : Part :=
  { p with
    curves := Six.ofFn fun u => deriveFallback p.config.station.fallbackHead (p.unitRecord u)
    fallbackInUse := p.config.station.fallbackHead
    estimator := p.freshEstimator
    dispatcher :=
      { timer := p.startTimer p.config.station.evalInterval
        hold := false
        startOrder := startOrderOf p.config.station p.accounting.totals.runSeconds
        demand := 0 }
    cleaner :=
      { state := .idle
        cause := none
        raking := none
        interval := p.startTimerUnlessZero p.config.station.rakeInterval
        pause := none
        rake := false
        done := l.rakeDone } }

/-- Every block after a reset, before any record. -/
def Part.blank (p : Part) (restart : Bool) (l : FieldLines) : Part :=
  ((((p.resetBase restart l).resetPlan).resetArbiter l).resetSupervision l).resetRest l

/-- The first records of a reset (R161, R196, R197). -/
def Part.announce (p : Part) (restart : Bool) : Part :=
  let p1 := p.record (if restart then .partRestart else .powerOn) none none
  if p.store.configured then p1 else p1.record .storeInvalid none none

/-- The lines of unit `u` act at a reset (R58): TRIP of an enabled unit trips it, RUN otherwise stops it. -/
def Part.unitAtReset (p : Part) (u : UnitNo) : Part :=
  if (p.unitRecord u).enabled && (p.unit u).trip then
    (p.tripUnit u .motorTrip).record .motorTrip (some u) (some 1)
  else if (p.unit u).run then p.stopOrder u .reset
  else p

/-- The lines of the units act at a reset, in ascending unit number (R161). -/
def unitsAtReset : List UnitNo → Part → Part
  | [], p => p
  | u :: us, p => unitsAtReset us (p.unitAtReset u)

/-- The effective FLOAT_LOW acts at a reset (R96), STOP_LEVEL the last of the reset records (R161). -/
def Part.floatLowAtReset (p : Part) : Part :=
  if p.gauge.effLow then p.protect.record .stopLevel none none else p

/-- A reset (R160, R197): power-on, or RESTART_PART with `restart`; the first round is taken at the reset itself
(R16). -/
def Part.resetTo (p : Part) (restart : Bool) (inp : FieldInputs) : Part :=
  ((unitsAtReset UnitNo.all ((p.blank restart inp.lines).announce restart)).floatLowAtReset).round
    inp.currents

/-- POWER_ON_RESET (R197). -/
def execPowerOnReset (inp : FieldInputs) (s : State) : Result := s.act fun p => p.resetTo false inp

/-! ### The end of a reply (R182) -/

/-- The sending ends (R182): the direction control released, the action taken up and cleared, reception resumed. -/
def Link.sent (l : Link) : Link :=
  { l with
    rx := if l.discarding then .inTelegram else .hunting
    reply := []
    after := none
    direction := false }

/-- New link settings are taken up (R173, R182); a discard goes on under the new gap limit (log 26). -/
def Link.takeSettings (r : LinkSettings) (l : Link) : Link :=
  { l with
    settings := r
    gap := l.gap.map fun _ => r.gapLimit.ms }

/-- The after-reply action (R182). -/
def Part.afterReply (p : Part) (inp : FieldInputs) : AfterReply → Part
  | .newSettings r => p.modLink (Link.takeSettings r)
  | .newEnables marks => { p with config.enables := marks }.updateAlert
  | .restart => p.resetTo true inp

/-- The reply ends (R182). -/
def Part.replyEnds (p : Part) (inp : FieldInputs) : Part :=
  match p.link.after with
  | some a => (p.modLink Link.sent).afterReply inp a
  | none => p.modLink Link.sent

/-- REPLY_END (R182). -/
def execReplyEnd (inp : FieldInputs) (s : State) : Result :=
  s.act fun p => if p.link.rx == .replying then p.replyEnds inp else p

end Sys2Proof.Machine
end

