-- ==== Sys2Proof/Machine/Reception.lean ====
section
/-! DEFINITION. BYTE_RECEIVED (R175): the bytes of a telegram, its completion and check (R178), its tests (R179), and
the request that a body spells (sections 11.4 and 11.7, R184). -/

namespace Sys2Proof.Machine

/-! ### Bodies -/

/-- The byte at `i` of a body. -/
def byteAt (bs : List Byte) (i : Nat) : Byte := codeByte (fieldAt bs i 1)

/-- The two-byte number at `i` of a body. -/
def word16At (bs : List Byte) (i : Nat) : Word16 := BitVec.ofNat 16 (fieldAt bs i 2)

/-- A SET_MODE by its action byte (R184). -/
def serveSetMode (action : Byte) (p : Part) : Part × Response :=
  match action.toNat with
  | 1 => serveHold p
  | 2 => serveRelease p
  | _ => (p, .refusal .range)

/-- A UNIT_ORDER by its unit and action bytes (R54, R184). -/
def serveUnitOrder (n action : Byte) (p : Part) : Part × Response :=
  match action.toNat with
  | 1 => forUnit n orderEnable p
  | 2 => forUnit n orderDisable p
  | 3 => forUnit n orderHandStart p
  | 4 => forUnit n orderHandStop p
  | 5 => forUnit n orderAuto p
  | 6 => forUnit n orderClear p
  | _ => (p, .refusal .range)

/-- A SLUICE_ORDER by its action byte (R126, R184). -/
def serveSluiceOrder (action : Byte) (p : Part) : Part × Response :=
  match action.toNat with
  | 1 => serveSluiceAuto p
  | 2 => serveSluiceKeepClosed p
  | 3 => serveSluiceClear p
  | _ => (p, .refusal .range)

/-- A RAKE_ORDER by its action byte (R132, R184). -/
def serveRakeOrder (action : Byte) (p : Part) : Part × Response :=
  match action.toNat with
  | 1 => serveRakeStart p
  | 2 => serveRakeClear p
  | _ => (p, .refusal .range)

/-- The request of a kind and a body that fits it (section 11.7). -/
def serveKind (k : RequestKind) (body : List Byte) (cur : Currents) : Part → Part × Response :=
  match k with
  | .askStation => serveAskStation
  | .askGauges => serveAskGauges cur
  | .askUnit => forUnit (byteAt body 0) orderAskUnit
  | .askPlan => serveAskPlan (byteAt body 0)
  | .askConfig => serveAskConfig (byteAt body 0) (byteAt body 1)
  | .askCounters => serveAskCounters
  | .takeEvents => serveTakeEvents (byteAt body 0)
  | .setTarget => serveSetTarget (word16At body 0) (word16At body 2)
  | .setBudget => serveSetBudget (word16At body 0)
  | .setClock => serveSetClock (BitVec.ofNat 32 (fieldAt body 0 4))
  | .setMode => serveSetMode (byteAt body 0)
  | .setAlerts => serveSetAlerts (byteAt body 0)
  | .clearAlerts => serveClearAlerts (byteAt body 0)
  | .unitOrder => serveUnitOrder (byteAt body 0) (byteAt body 1)
  | .sluiceOrder => serveSluiceOrder (byteAt body 0)
  | .rakeOrder => serveRakeOrder (byteAt body 0)
  | .planAdd => servePlanAdd (decodePlanWords body)
  | .planClear => servePlanClear
  | .writeConfig => serveWriteConfig (byteAt body 0) (byteAt body 1) (body.drop 2)
  | .saveConfig => serveSaveConfig
  | .zeroCounters => serveZeroCounters
  | .restartPart => serveRestartPart

/-! ### Completion (R178, R179) -/

/-- The tests of a telegram that passes its check (R179), and its service. -/
def Part.testTelegram (p : Part) (kind tag : Byte) (body : List Byte) (cur : Currents) : Part :=
  match RequestKind.ofByte kind with
  | none => p.serve kind tag fun q => (q, .refusal .kind)
  | some k =>
    if k.bodyFits body.length then p.serve kind tag (serveKind k body cur)
    else (p.modLink Link.completed).reply kind tag (.refusal .length)

/-- The body of a complete telegram (R171). -/
def bodyOf (bs : List Byte) : List Byte := (bs.drop 4).take (bs.length - 6)

/-- The check of a complete telegram agrees (R172, R178). -/
def checkAgrees (bs : List Byte) : Bool :=
  bs.drop (bs.length - 2) == crcBytes ((bs.drop 1).take (bs.length - 3))

/-- A telegram is complete (R178). -/
def Part.takeTelegram (p : Part) (bs : List Byte) (cur : Currents) : Part :=
  if checkAgrees bs then p.testTelegram (byteAt bs 2) (byteAt bs 3) (bodyOf bs) cur
  else p.modLink Link.checkFailed

/-- The bytes received make a complete telegram: byte 5 + L is there (R178). -/
def telegramComplete : List Byte → Bool
  | m :: l :: rest => decide ((m :: l :: rest).length = l.toNat + 6)
  | _ => false

/-- The length byte has just arrived and is above 240 (R177). -/
def lengthOversize : List Byte → Bool
  | [_, l] => decide (maxBodyLength < l.toNat)
  | _ => false

/-- A byte joins the telegram being received (R175). -/
def Link.appendByte (b : Byte) (l : Link) : Link := { l with buffer := l.buffer ++ [b] }.startGap

/-- A marker is met in HUNTING (R175). -/
def Link.begin (l : Link) : Link :=
  { l with rx := .inTelegram, discarding := false, buffer := [marker] }.startGap

/-- A byte in IN_TELEGRAM, not discarding (R175, R177, R178). -/
def Part.extendTelegram (p : Part) (b : Byte) (cur : Currents) : Part :=
  if lengthOversize (p.link.buffer ++ [b]) then p.modLink Link.oversized
  else if telegramComplete (p.link.buffer ++ [b]) then p.takeTelegram (p.link.buffer ++ [b]) cur
  else p.modLink (Link.appendByte b)

/-- A byte is received (R175, R177, R182). -/
def Part.receiveByte (p : Part) (b : Byte) (cur : Currents) : Part :=
  match p.link.rx, p.link.discarding with
  | .hunting, _ => if b == marker then p.modLink Link.begin else p
  | .inTelegram, false => p.extendTelegram b cur
  | .replying, false => if b == marker then p.modLink Link.overrun else p
  | .inTelegram, true | .replying, true => p.modLink Link.startGap

/-- BYTE_RECEIVED (R175), and the immediate round that a completed request triggers (R15). -/
def execByteReceived (b : Byte) (cur : Currents) (s : State) : Result :=
  s.act fun p => (p.receiveByte b cur).takeDueRound cur

end Sys2Proof.Machine
end

