-- ==== Sys2Proof/Machine/Dispatch.lean ====
section
/-! DEFINITION. `exec`: one command, one meaning. -/

namespace Sys2Proof.Machine

def exec (i : Instr) (s : State) : Host.Outcome State Fault Refusal :=
  match i with
  | .powerOnReset inp => Sys2Proof.Machine.execPowerOnReset inp s
  | .samplingRound cur => Sys2Proof.Machine.execSamplingRound cur s
  | .runAsserted u => Sys2Proof.Machine.execRunAsserted u s
  | .runReleased u => Sys2Proof.Machine.execRunReleased u s
  | .tripAsserted u => Sys2Proof.Machine.execTripAsserted u s
  | .tripReleased u => Sys2Proof.Machine.execTripReleased u s
  | .primedAsserted u => Sys2Proof.Machine.execPrimedAsserted u s
  | .primedReleased u => Sys2Proof.Machine.execPrimedReleased u s
  | .primeTimerExpiry u cur => Sys2Proof.Machine.execPrimeTimerExpiry u cur s
  | .startTimerExpiry u cur => Sys2Proof.Machine.execStartTimerExpiry u cur s
  | .stopTimerExpiry u => Sys2Proof.Machine.execStopTimerExpiry u s
  | .restTimerExpiry u cur => Sys2Proof.Machine.execRestTimerExpiry u cur s
  | .minRunTimerExpiry u => Sys2Proof.Machine.execMinRunTimerExpiry u s
  | .runLossTimerExpiry u => Sys2Proof.Machine.execRunLossTimerExpiry u s
  | .dwellTimerExpiry u => Sys2Proof.Machine.execDwellTimerExpiry u s
  | .enable tag n => Sys2Proof.Machine.execEnable tag n s
  | .disable tag n => Sys2Proof.Machine.execDisable tag n s
  | .handStart tag n cur => Sys2Proof.Machine.execHandStart tag n cur s
  | .handStop tag n => Sys2Proof.Machine.execHandStop tag n s
  | .unitAuto tag n => Sys2Proof.Machine.execUnitAuto tag n s
  | .unitClear tag n => Sys2Proof.Machine.execUnitClear tag n s
  | .askUnit tag n => Sys2Proof.Machine.execAskUnit tag n s
  | .dispatchEvaluation cur => Sys2Proof.Machine.execDispatchEvaluation cur s
  | .staggerTimerExpiry => Sys2Proof.Machine.execStaggerTimerExpiry s
  | .shedDelayTimerExpiry => Sys2Proof.Machine.execShedDelayTimerExpiry s
  | .curtailAsserted => Sys2Proof.Machine.execCurtailAsserted s
  | .curtailReleased => Sys2Proof.Machine.execCurtailReleased s
  | .setBudget tag budget => Sys2Proof.Machine.execSetBudget tag budget s
  | .historyTimerExpiry => Sys2Proof.Machine.execHistoryTimerExpiry s
  | .accountingSecond => Sys2Proof.Machine.execAccountingSecond s
  | .floatHighAsserted cur => Sys2Proof.Machine.execFloatHighAsserted cur s
  | .floatHighReleased cur => Sys2Proof.Machine.execFloatHighReleased cur s
  | .floatLowAsserted cur => Sys2Proof.Machine.execFloatLowAsserted cur s
  | .floatLowReleased cur => Sys2Proof.Machine.execFloatLowReleased cur s
  | .sluiceAtOpenAsserted => Sys2Proof.Machine.execSluiceAtOpenAsserted s
  | .sluiceAtOpenReleased => Sys2Proof.Machine.execSluiceAtOpenReleased s
  | .sluiceAtClosedAsserted => Sys2Proof.Machine.execSluiceAtClosedAsserted s
  | .sluiceAtClosedReleased => Sys2Proof.Machine.execSluiceAtClosedReleased s
  | .travelTimerExpiry => Sys2Proof.Machine.execTravelTimerExpiry s
  | .sluiceAuto tag => Sys2Proof.Machine.execSluiceAuto tag s
  | .sluiceKeepClosed tag => Sys2Proof.Machine.execSluiceKeepClosed tag s
  | .sluiceClear tag => Sys2Proof.Machine.execSluiceClear tag s
  | .rakeDoneAsserted => Sys2Proof.Machine.execRakeDoneAsserted s
  | .rakeDoneReleased => Sys2Proof.Machine.execRakeDoneReleased s
  | .rakingTimerExpiry => Sys2Proof.Machine.execRakingTimerExpiry s
  | .intervalTimerExpiry => Sys2Proof.Machine.execIntervalTimerExpiry s
  | .pauseTimerExpiry => Sys2Proof.Machine.execPauseTimerExpiry s
  | .rakeStart tag => Sys2Proof.Machine.execRakeStart tag s
  | .rakeClear tag => Sys2Proof.Machine.execRakeClear tag s
  | .setTarget tag target band => Sys2Proof.Machine.execSetTarget tag target band s
  | .planAdd tag entry => Sys2Proof.Machine.execPlanAdd tag entry s
  | .planClear tag => Sys2Proof.Machine.execPlanClear tag s
  | .askPlan tag position => Sys2Proof.Machine.execAskPlan tag position s
  | .supervisionTimerExpiry => Sys2Proof.Machine.execSupervisionTimerExpiry s
  | .setModeHold tag => Sys2Proof.Machine.execSetModeHold tag s
  | .setModeRelease tag => Sys2Proof.Machine.execSetModeRelease tag s
  | .mainsOkReleased cur => Sys2Proof.Machine.execMainsOkReleased cur s
  | .mainsOkAsserted cur => Sys2Proof.Machine.execMainsOkAsserted cur s
  | .settleTimerExpiry cur => Sys2Proof.Machine.execSettleTimerExpiry cur s
  | .restartPart tag => Sys2Proof.Machine.execRestartPart tag s
  | .askStation tag => Sys2Proof.Machine.execAskStation tag s
  | .askGauges tag cur => Sys2Proof.Machine.execAskGauges tag cur s
  | .askCounters tag => Sys2Proof.Machine.execAskCounters tag s
  | .setClock tag clock => Sys2Proof.Machine.execSetClock tag clock s
  | .zeroCounters tag => Sys2Proof.Machine.execZeroCounters tag s
  | .takeEvents tag count => Sys2Proof.Machine.execTakeEvents tag count s
  | .setAlerts tag marks => Sys2Proof.Machine.execSetAlerts tag marks s
  | .clearAlerts tag marks => Sys2Proof.Machine.execClearAlerts tag marks s
  | .writeConfigLink tag inst record => Sys2Proof.Machine.execWriteConfigLink tag inst record s
  | .writeConfigStation tag inst record => Sys2Proof.Machine.execWriteConfigStation tag inst record s
  | .writeConfigGauge tag inst record => Sys2Proof.Machine.execWriteConfigGauge tag inst record s
  | .writeConfigUnit tag inst record => Sys2Proof.Machine.execWriteConfigUnit tag inst record s
  | .askConfig tag type inst => Sys2Proof.Machine.execAskConfig tag type inst s
  | .saveConfig tag => Sys2Proof.Machine.execSaveConfig tag s
  | .saveAttemptCompletion passed => Sys2Proof.Machine.execSaveAttemptCompletion passed s
  | .unknownKind tag kind => Sys2Proof.Machine.execUnknownKind tag kind s
  | .checkFailure => Sys2Proof.Machine.execCheckFailure s
  | .oversize _ => Sys2Proof.Machine.execOversize s
  | .overrun => Sys2Proof.Machine.execOverrun s
  | .gapTimerExpiry => Sys2Proof.Machine.execGapTimerExpiry s
  | .replyEnd inp => Sys2Proof.Machine.execReplyEnd inp s
  | .byteReceived b cur => Sys2Proof.Machine.execByteReceived b cur s
  | .refusalLength tag kind _ => Sys2Proof.Machine.execRefusalLength tag kind s

end Sys2Proof.Machine
end

