-- ==== Sys2Proof/Safety.lean ====
section
/-! DEFINITION. What the rules say holds at every moment, as predicates on the part; the state right after a
telegram's arrival; the rows that telegrams spell; the commands that take a reset. -/

namespace Sys2Proof.Machine

/-! ### What holds at every moment -/

/-- The output lines of every unit follow its state (R31). -/
def Part.UnitLinesFollow (p : Part) : Prop :=
  ∀ u : UnitNo, (p.unit u).startOut = (p.unit u).state.drivesStart
    ∧ (p.unit u).primeOut = (p.unit u).state.drivesPrime
    ∧ (p.unit u).airvalveOut = airvalveOf (p.unitRecord u).outlet (p.unit u).state

/-- No timer of a unit runs in a state that does not list it (R30). -/
def PumpUnit.timersFit (pu : PumpUnit) : Prop :=
  (pu.primeTimer.isSome → pu.state = .priming) ∧ (pu.startTimer.isSome → pu.state = .starting)
    ∧ (pu.stopTimer.isSome → pu.state = .stopping) ∧ (pu.minRunTimer.isSome → pu.state = .running)
    ∧ (pu.restTimer.isSome → pu.state = .resting) ∧ (pu.runLossTimer.isSome → pu.state = .running)
    ∧ (pu.dwellTimer.isSome → pu.state = .running)

/-- Every unit's timers fit its state (R30). -/
def Part.UnitTimersFit (p : Part) : Prop := ∀ u : UnitNo, (p.unit u).timersFit

/-- The queue of records never holds more than 48 (R190), and ALERT is asserted exactly while a class has its flag
set and its enable on (R195). -/
def Part.AlertFollows (p : Part) : Prop :=
  p.events.records.length ≤ 48 ∧ p.events.alert = alertOf p.events.flags p.config.enables

/-- The mains state is LOST exactly while MAINS_OK is released (R152), and the settle timer runs exactly in
SETTLING (section 9.2). -/
def Part.MainsFollows (p : Part) : Prop :=
  (p.supervision.mains = .lost ↔ p.supervision.mainsOk = false)
    ∧ (p.supervision.mains = .settling ↔ p.supervision.settle.isSome = true)

/-- The drive lines, the travel timer and the mark of the interval follow the sluice state (R119, R61). -/
def Part.SluiceFollows (p : Part) : Prop :=
  (p.sluice.driveOpen = true ↔ p.sluice.state = .opening)
    ∧ (p.sluice.driveClose = true ↔ p.sluice.state = .closing ∧ p.sluice.waiting = false)
    ∧ p.sluice.travel.isSome = (p.sluice.driveOpen || p.sluice.driveClose)
    ∧ (p.estimator.closedThroughout = true → p.sluice.state = .closed)

/-- RAKE is asserted and the raking timer runs exactly while RAKING (R129, R130). -/
def Part.CleanerFollows (p : Part) : Prop :=
  (p.cleaner.rake = true ↔ p.cleaner.state = .raking)
    ∧ (p.cleaner.raking.isSome = true ↔ p.cleaner.state = .raking)

/-- The plan holds at most 32 entries, in strictly increasing activation time, each later than the station clock,
and its state says whether it holds any (R138). -/
def Part.PlanOrdered (p : Part) : Prop :=
  p.plan.entries.length ≤ 32
    ∧ p.plan.entries.Pairwise (fun a b => a.time.toNat < b.time.toNat)
    ∧ (∀ e ∈ p.plan.entries, p.accounting.clock.toNat < e.time.toNat)
    ∧ (p.plan.planState = .empty ↔ p.plan.entries = [])

/-- A unit is QUEUED exactly when the queue holds an entry for it, and no unit holds two (R97). -/
def Part.QueueMatches (p : Part) : Prop :=
  (∀ u : UnitNo, (p.unit u).state = .queued ↔ u ∈ p.arbiter.queue.map (·.unit))
    ∧ (p.arbiter.queue.map (·.unit)).Nodup

/-- The unit in PRIMING or STARTING, of which there is at most one, holds the start slot (R100). -/
def Part.SlotMatches (p : Part) : Prop :=
  ∀ u : UnitNo, (p.unit u).inStart = true ↔ p.arbiter.slot = some u

/-- Committed load is the sum of the reserved loads (R107); while the mains state is not OK, every reserved load is 0
(R45) and no unit is in PRIMING, STARTING or RUNNING (R152). -/
def Part.LoadsMatch (p : Part) : Prop :=
  p.arbiter.committed = p.reservedSum
    ∧ (p.supervision.mains ≠ .ok →
        ∀ u : UnitNo, (p.unit u).reserved = 0 ∧ (p.unit u).inService = false)

/-- The shed state is SHEDDING exactly while committed load exceeds the effective budget (R112, R116), and the shed
delay timer runs exactly then (R115). -/
def Part.ShedMatches (p : Part) : Prop :=
  (p.arbiter.shed = .shedding ↔ p.arbiter.effective < p.arbiter.committed)
    ∧ (p.arbiter.shedDelay.isSome = true ↔ p.arbiter.shed = .shedding)

/-- The effective budget is the one its inputs give (R108). -/
def Part.BudgetFollows (p : Part) : Prop := p.arbiter.effective = p.budgetNow

/-- The arbiter's books and the units agree: queue, slot, loads, budget and shed state. -/
def Part.ArbiterConsistent (p : Part) : Prop :=
  p.QueueMatches ∧ p.SlotMatches ∧ p.LoadsMatch ∧ p.ShedMatches ∧ p.BudgetFollows

/-- The bounded lists keep their bounds: start histories (R51), history ring (R62). -/
def Part.ListsBounded (p : Part) : Prop :=
  (∀ u : UnitNo, (p.unit u).history.length ≤ 12) ∧ p.estimator.ring.length ≤ 16

/-- The receive state, the mark, the gap timer and the direction control fit one another (R175, R176, R182). -/
def Part.LinkFits (p : Part) : Prop :=
  (p.link.direction = true ↔ p.link.rx = .replying)
    ∧ (p.link.rx = .hunting → p.link.gap = none ∧ p.link.discarding = false)
    ∧ (p.link.rx = .inTelegram → p.link.gap.isSome = true)
    ∧ (p.link.rx = .replying → p.link.gap.isSome = p.link.discarding)

/-- What a unit controller holds fits its state: a fault code exactly in TRIPPED (R46), a stop origin exactly in
STOPPING (R39, R40), a pending retry only in RESTING (R36, R37), RUN asserted only where the unit is delivering
(R42, R47), a reserved load only in the start sequence or while delivering (R48), the run-loss timer exactly while
a RUNNING unit's RUN is released (R43). -/
def PumpUnit.booksFit (pu : PumpUnit) : Prop :=
  (pu.fault.isSome = true ↔ pu.state = .tripped) ∧ (pu.stopOrigin.isSome = true ↔ pu.state = .stopping)
    ∧ (pu.retryPending = true → pu.state = .resting) ∧ (pu.run = true → pu.delivering = true)
    ∧ (0 < pu.reserved → pu.inStart = true ∨ pu.delivering = true)
    ∧ (pu.runLossTimer.isSome = true ↔ pu.state = .running ∧ pu.run = false)

/-- Every unit's books fit its state, and no immediate round is left over (R15: it is taken within its event). -/
def Part.UnitBooksFit (p : Part) : Prop := (∀ u : UnitNo, (p.unit u).booksFit) ∧ p.roundDue = false

/-! ### Configurations as the writes leave them -/

/-- A fixed order, ranges and thresholds as a taken write of the station record leaves them (R94, R198). -/
def StationRecord.asWritten (r : StationRecord) : Prop := clampStation r = r ∧ stationValid r = true

/-- A gauge record as a taken write leaves it (R3). -/
def GaugeRecord.asWritten (r : GaugeRecord) : Prop := clampGauge r = r

/-- A unit record as a taken write leaves it (R17, R29). -/
def UnitRecord.asWritten (r : UnitRecord) : Prop :=
  clampUnit r = r ∧ r.outlet.named = true ∧ curveValid r.curve = true

/-- A working copy whose records are as taken writes leave them. -/
def WorkingCopy.asWritten (c : WorkingCopy) : Prop :=
  c.link.named = true ∧ c.station.asWritten ∧ (∀ n : ChannelName, (c.gauges.get n).asWritten)
    ∧ (∀ u : UnitNo, (c.units.get u).asWritten)

/-! ### Requests -/

/-- The command is a telegram of a request kind, its length fitting. -/
def isRequest : Instr → Bool
  | .enable _ _ | .disable _ _ | .handStart _ _ _ | .handStop _ _ | .unitAuto _ _ | .unitClear _ _
  | .askUnit _ _ | .setBudget _ _ | .sluiceAuto _ | .sluiceKeepClosed _ | .sluiceClear _ | .rakeStart _
  | .rakeClear _ | .setTarget _ _ _ | .planAdd _ _ | .planClear _ | .askPlan _ _ | .setModeHold _
  | .setModeRelease _ | .restartPart _ | .askStation _ | .askGauges _ _ | .askCounters _ | .setClock _ _
  | .zeroCounters _ | .takeEvents _ _ | .setAlerts _ _ | .clearAlerts _ _ | .writeConfigLink _ _ _
  | .writeConfigStation _ _ _ | .writeConfigGauge _ _ _ | .writeConfigUnit _ _ _ | .askConfig _ _ _
  | .saveConfig _ => true
  | _ => false

/-- The command is the arrival of a telegram, whole or cut off by its length byte. -/
def bringsTelegram : Instr → Bool
  | .unknownKind _ _ | .refusalLength _ _ _ | .checkFailure | .oversize _ => true
  | c => isRequest c

/-- The UNIT_ORDER row of an action code (R184). -/
def unitOrderRow (tag n : Byte) (cur : Currents) : Nat → Option Instr
  | 1 => some (.enable tag n)
  | 2 => some (.disable tag n)
  | 3 => some (.handStart tag n cur)
  | 4 => some (.handStop tag n)
  | 5 => some (.unitAuto tag n)
  | 6 => some (.unitClear tag n)
  | _ => none

/-- The WRITE_CONFIG row of a record type (R198). -/
def writeConfigRow (tag inst : Byte) (record : List Byte) : Nat → Option Instr
  | 0 => some (.writeConfigLink tag inst record)
  | 1 => some (.writeConfigStation tag inst record)
  | 2 => some (.writeConfigGauge tag inst record)
  | 3 => some (.writeConfigUnit tag inst record)
  | _ => none

/-- The row of the table that a request of this kind, tag and body is (section 11.7, R184); none where its action
code or record type names none. -/
def rowOf (k : RequestKind) (tag : Byte) (body : List Byte) (cur : Currents) : Option Instr :=
  match k with
  | .askStation => some (.askStation tag)
  | .askGauges => some (.askGauges tag cur)
  | .askUnit => some (.askUnit tag (byteAt body 0))
  | .askPlan => some (.askPlan tag (byteAt body 0))
  | .askConfig => some (.askConfig tag (byteAt body 0) (byteAt body 1))
  | .askCounters => some (.askCounters tag)
  | .takeEvents => some (.takeEvents tag (byteAt body 0))
  | .setTarget => some (.setTarget tag (word16At body 0) (word16At body 2))
  | .setBudget => some (.setBudget tag (word16At body 0))
  | .setClock => some (.setClock tag (BitVec.ofNat 32 (fieldAt body 0 4)))
  | .setMode =>
    match (byteAt body 0).toNat with
    | 1 => some (.setModeHold tag)
    | 2 => some (.setModeRelease tag)
    | _ => none
  | .setAlerts => some (.setAlerts tag (byteAt body 0))
  | .clearAlerts => some (.clearAlerts tag (byteAt body 0))
  | .unitOrder => unitOrderRow tag (byteAt body 0) cur (byteAt body 1).toNat
  | .sluiceOrder =>
    match (byteAt body 0).toNat with
    | 1 => some (.sluiceAuto tag)
    | 2 => some (.sluiceKeepClosed tag)
    | 3 => some (.sluiceClear tag)
    | _ => none
  | .rakeOrder =>
    match (byteAt body 0).toNat with
    | 1 => some (.rakeStart tag)
    | 2 => some (.rakeClear tag)
    | _ => none
  | .planAdd => some (.planAdd tag (decodePlanWords body))
  | .planClear => some (.planClear tag)
  | .writeConfig => writeConfigRow tag (byteAt body 1) (body.drop 2) (byteAt body 0).toNat
  | .saveConfig => some (.saveConfig tag)
  | .zeroCounters => some (.zeroCounters tag)
  | .restartPart => some (.restartPart tag)

/-- The part once a telegram has arrived and been accepted, before its request is served (R178, R179). -/
def Part.arrived (p : Part) : Part := (p.modLink Link.completed).acceptTelegram

/-- The state `s` with its part replaced. -/
def State.withPart (s : State) (p : Part) : State := { s with part := p }

/-- The part sends this answer to a request of this kind and tag (R171, R180). -/
def Part.answers (p : Part) (k : RequestKind) (tag : Byte) (body : List Byte) : Part :=
  p.reply k.byte tag (.answer body)

/-- The part sends this refusal of a request of this kind and tag (R181). -/
def Part.refuses (p : Part) (k : RequestKind) (tag : Byte) (r : Reason) : Part :=
  p.reply k.byte tag (.refusal r)

/-! ### Resets -/

/-- The command takes a reset of the part: power-on, or the end of a reply whose action is the restart (R160,
R182, R197). -/
def takesReset (c : Instr) (s : State) (restart : Bool) (inp : FieldInputs) : Prop :=
  (c = .powerOnReset inp ∧ restart = false)
    ∨ (c = .replyEnd inp ∧ restart = true ∧ s.part.link.rx = .replying
        ∧ s.part.link.after = some .restart)

end Sys2Proof.Machine
end

