-- ==== Sys2Proof/Certificates/Slice0/Obligations.lean ====
section
/-! DEFINITION. The statements for the provers: the queue of commands, what holds at every moment, and the rules of the
manual chapter by chapter. `s.part` is the part before a command; `s.withPart q` is `s` with its part replaced, so an
equation `exec c s = .next (s.withPart q)` says both the effect and all that stays as it was. -/

open Sys2Proof Sys2Proof.Machine

/-! ### The queue -/

/-- A step runs the command at the front of the queue on the part and the queue's rest; on an empty queue the block
idles, which is the model's choice (log 5). Every command answers a next state and leaves the queue alone. -/
def Obligations.StepRunsFrontCommand : Prop :=
  (∀ (c : Instr) (rest : List Instr) (p : Part), step ⟨p, c :: rest⟩ = exec c ⟨p, rest⟩)
    ∧ (∀ p : Part, step ⟨p, []⟩ = .next ⟨p, []⟩)
    ∧ ∀ (c : Instr) (s : State), ∃ p : Part, exec c s = .next (s.withPart p)

/-! ### What holds at every moment -/

/-- The output lines of the units follow their states (R31). -/
def Obligations.OutputLinesFollowState : Prop :=
  ∀ s t : State, s.part.UnitLinesFollow → step s = .next t → t.part.UnitLinesFollow

/-- A unit's timers run only in the states that list them (R30). -/
def Obligations.UnitTimersFitStates : Prop :=
  ∀ s t : State, s.part.UnitTimersFit → step s = .next t → t.part.UnitTimersFit

/-- What each unit controller holds fits its state, and no immediate round is left over. The premises are invariants
stated of themselves. -/
def Obligations.UnitBooksFitStates : Prop :=
  ∀ s t : State, s.part.UnitBooksFit → s.part.ArbiterConsistent → s.part.MainsFollows →
    step s = .next t → t.part.UnitBooksFit

/-- The arbiter's queue, slot, committed load, effective budget and shed state agree with the units and with one
another. The premises are invariants stated of themselves. -/
def Obligations.ArbiterAgreesWithUnits : Prop :=
  ∀ s t : State, s.part.ArbiterConsistent → s.part.UnitBooksFit → s.part.MainsFollows →
    step s = .next t → t.part.ArbiterConsistent

/-- The event queue holds at most 48 records and ALERT follows flags and enables; the start histories and the history
ring keep their bounds. -/
def Obligations.AlertFollowsAndListsBounded : Prop :=
  (∀ s t : State, s.part.AlertFollows → step s = .next t → t.part.AlertFollows)
    ∧ ∀ s t : State, s.part.ListsBounded → step s = .next t → t.part.ListsBounded

/-- The mains state follows its line and its timer, the gate's drive lines and the cleaner's line follow the states
of their controllers. -/
def Obligations.MainsSluiceCleanerFollow : Prop :=
  (∀ s t : State, s.part.MainsFollows → step s = .next t → t.part.MainsFollows)
    ∧ (∀ s t : State, s.part.SluiceFollows → step s = .next t → t.part.SluiceFollows)
    ∧ ∀ s t : State, s.part.CleanerFollows → step s = .next t → t.part.CleanerFollows

/-- The plan stays short, ordered and later than the clock, and its state follows it (R138). -/
def Obligations.PlanStaysOrdered : Prop :=
  ∀ s t : State, s.part.PlanOrdered → step s = .next t → t.part.PlanOrdered

/-- The receive state, the discarding mark, the gap timer and the direction control fit one another. -/
def Obligations.LinkStatesFit : Prop :=
  ∀ s t : State, s.part.LinkFits → step s = .next t → t.part.LinkFits

/-- Everything above holds right after reset. -/
def Obligations.InvariantsHoldAtReset : Prop :=
  State.reset.part.UnitLinesFollow ∧ State.reset.part.UnitTimersFit ∧ State.reset.part.UnitBooksFit
    ∧ State.reset.part.ArbiterConsistent ∧ State.reset.part.AlertFollows ∧ State.reset.part.ListsBounded
    ∧ State.reset.part.MainsFollows ∧ State.reset.part.SluiceFollows ∧ State.reset.part.CleanerFollows
    ∧ State.reset.part.PlanOrdered ∧ State.reset.part.LinkFits

/-! ### Levels and gauges (chapter 1) -/

/-- A round appends one sample to every fitted channel, the oldest leaving a buffer of three, and sets its state from
the buffer; a channel that is not fitted holds none (R1). -/
def Obligations.RoundSamplesChannels : Prop :=
  (∀ (cur : Currents) (s : State),
      exec (.samplingRound cur) s = .next (s.withPart (s.part.round cur)))
    ∧ ∀ (p : Part) (cur : Currents) (n : ChannelName),
      let before := p.gauge.channels.get n
      let after := (p.round cur).gauge.channels.get n
      ((p.config.gauges.get n).fitted = false → after = ⟨[], .notFitted⟩)
        ∧ ((p.config.gauges.get n).fitted = true →
            after.buffer
                = (if before.buffer.length < 3 then before.buffer else before.buffer.drop 1) ++ [cur.get n]
              ∧ (after.buffer.length < 3 → after.state = .init)
              ∧ (3 ≤ after.buffer.length → (∀ i ∈ after.buffer, 3800 ≤ i ∧ i ≤ 20500) →
                  after.state = .valid)
              ∧ ∀ (older newer : List Nat) (i : Nat), 3 ≤ after.buffer.length →
                  after.buffer = older ++ i :: newer → (∀ j ∈ newer, 3800 ≤ j ∧ j ≤ 20500) →
                  (i < 3800 → after.state = .invalid .wireBreak)
                    ∧ (20500 < i → after.state = .invalid .overrange))

/-- The level of a VALID channel: the median current clamped, the exact level rounded to the nearest millimetre with
halves away from zero, then clamped; no level in any other state (R2). -/
def Obligations.ChannelLevelFromMedian : Prop :=
  (∀ (g : GaugeRecord) (c : Channel), c.state ≠ .valid → c.level g = none)
    ∧ ∀ (g : GaugeRecord) (c : Channel) (lo mid hi : Nat), c.state = .valid → lo ≤ mid → mid ≤ hi →
      c.buffer.Perm [lo, mid, hi] →
      ∃ r : Int,
        let exact : Int := g.zero * 16000 + (((max 4000 (min mid 20000) : Nat) : Int) - 4000) * g.span
        2 * (16000 * r - exact).natAbs ≤ 16000
          ∧ (2 * (16000 * r - exact).natAbs = 16000 → exact.natAbs < (16000 * r).natAbs)
          ∧ c.level g = some (max (-20000) (min r 20000))

/-- The inner quality and level of a round by the table of R5, the hold of R6, and what becomes of the held level. -/
def Rules.InnerQualityByTable : Prop :=
  ∀ p : Part,
    let ga := p.gauge.channels.ga.state
    let gb := p.gauge.channels.gb.state
    let inner := p.findInner
    (ga = .init ∨ gb = .init → inner.quality = .init ∧ inner.level = none ∧ inner.live = false)
      ∧ (ga ≠ .init → gb ≠ .init →
          (∀ a b : Int, p.channelLevel .ga = some a → p.channelLevel .gb = some b →
              ((a - b).natAbs ≤ p.config.station.agreementLimit →
                  inner.quality = .both ∧ inner.level = some (Int.tdiv (a + b) 2))
                ∧ (p.config.station.agreementLimit < (a - b).natAbs →
                    inner.quality = .disagree
                      ∧ (p.gauge.heldInner = none → inner.level = some a)
                      ∧ ∀ h : HeldLevel, p.gauge.heldInner = some h →
                        inner.level
                          = some (if (b - h.level).natAbs < (a - h.level).natAbs then b else a))
                ∧ inner.live = true)
            ∧ (∀ l : Int, (p.channelLevel .ga = some l ∧ p.channelLevel .gb = none)
                  ∨ (p.channelLevel .ga = none ∧ p.channelLevel .gb = some l) →
                inner.quality = .single ∧ inner.level = some l ∧ inner.live = true)
            ∧ (p.channelLevel .ga = none → p.channelLevel .gb = none →
                inner.live = false
                  ∧ (∀ h : HeldLevel, p.gauge.heldInner = some h →
                      (p.accounting.uptime - h.time).toNat ≤ p.config.station.holdLimit →
                      inner.quality = .held ∧ inner.level = some h.level)
                  ∧ ((p.gauge.heldInner = none ∨ ∃ h : HeldLevel, p.gauge.heldInner = some h
                        ∧ p.config.station.holdLimit < (p.accounting.uptime - h.time).toNat) →
                      inner.quality = .lost ∧ inner.level = none)))
      ∧ (inner.live = true → ∀ l : Int, inner.level = some l →
          renewHeld p.accounting.uptime inner p.gauge.heldInner = some ⟨l, p.accounting.uptime⟩)
      ∧ (inner.live = false → renewHeld p.accounting.uptime inner p.gauge.heldInner = p.gauge.heldInner)

/-- The outer quality and level of a round (R8), and the screen level and rack loss (R9). That a GO that is NOT_FITTED,
which only a loaded image can bring, gives HELD or LOST as INVALID does is the model's choice (log 42). -/
def Rules.OuterQualityAndRackLoss : Prop :=
  ∀ p : Part,
    let go := p.gauge.channels.go.state
    let outer := p.findOuter
    (go = .init → outer.quality = .init ∧ outer.level = none)
      ∧ (∀ l : Int, go ≠ .init → p.channelLevel .go = some l →
          outer.quality = .ok ∧ outer.level = some l
            ∧ renewHeld p.accounting.uptime outer p.gauge.heldOuter = some ⟨l, p.accounting.uptime⟩)
      ∧ (∀ h : HeldLevel, go ≠ .init → p.channelLevel .go = none → p.gauge.heldOuter = some h →
          ((p.accounting.uptime - h.time).toNat ≤ p.config.station.holdLimit →
              outer.quality = .held ∧ outer.level = some h.level)
            ∧ (p.config.station.holdLimit < (p.accounting.uptime - h.time).toNat →
              outer.quality = .lost ∧ outer.level = none))
      ∧ (go ≠ .init → p.channelLevel .go = none → p.gauge.heldOuter = none →
          outer.quality = .lost ∧ outer.level = none)
      ∧ ∀ inner : Found InnerQuality, inner = p.findInner →
          (∀ l m : Int, p.channelLevel .gs = some m → inner.live = true → inner.level = some l →
              (p.snapshotOf inner outer).screen = some m
                ∧ (p.snapshotOf inner outer).rackLoss = some (m - l))
            ∧ (p.channelLevel .gs = none ∨ inner.quality = .held ∨ inner.quality = .lost
                  ∨ inner.quality = .init →
                (p.snapshotOf inner outer).screen = none ∧ (p.snapshotOf inner outer).rackLoss = none)

/-- The rack state after a snapshot, for rising thresholds, and its one record (R10). -/
def Rules.RackMovesByTable : Prop :=
  ∀ (st : StationRecord) (l : Int) (r : RackState), st.restrictThreshold < st.tripThreshold →
    rackAfter st none r = r
      ∧ (rackAfter st (some l) r = .trip ↔
          (st.tripThreshold : Int) ≤ l ∨ (r = .trip ∧ (st.tripThreshold : Int) - 50 ≤ l))
      ∧ (rackAfter st (some l) r = .clear ↔
          (r = .clear ∧ l < st.restrictThreshold)
            ∨ (r = .restrict ∧ l < (st.restrictThreshold : Int) - 50)
            ∨ (r = .trip ∧ l < (st.tripThreshold : Int) - 50 ∧ l < (st.restrictThreshold : Int) - 50))
      ∧ (rackAfter st (some l) r = r → rackEvent r (rackAfter st (some l) r) (some l) = none)
      ∧ (rackAfter st (some l) r ≠ r →
          rackEvent r (rackAfter st (some l) r) (some l)
            = some
                (match rackAfter st (some l) r with
                 | .clear => .rackClear
                 | .restrict => .rackRestrict
                 | .trip => .rackTrip, some l))

/-- A round replaces the snapshot whole by the one it formed (R13), keeps what the later rounds need, and hands it to the
blocks in the order of R13: the curve table, the arbiter where the rack has become CLEAR (R10), the dispatch controller,
the sluice controller, the cleaner controller, the six unit controllers. The sampling mode is decided by the quiet
condition once they have acted (R14). That the rack state moves on from the gauge unit's own, and not from the snapshot
before, is the model's choice (log 21), as are the order among the six unit controllers (log 41) and that an enqueue the
blocks made has its immediate round in this one (log 45). -/
def Obligations.RoundPutsSnapshotInForce : Prop :=
  ∀ (p : Part) (cur : Currents),
    let q := p.sampleChannels cur
    let snap := q.snapshotOf q.findInner q.findOuter
    let r := p.round cur
    let curves := q.formSnapshot.formCurves snap
    let told := if snap.rack = .clear ∧ p.gauge.rack ≠ .clear then curves.grantCheck else curves
    let stations := ((told.dispatchAtSnapshot snap).sluiceAtSnapshot snap).cleanerAtSnapshot snap
    let units :=
      (((((stations.unitAtSnapshot snap .u1).unitAtSnapshot snap .u2).unitAtSnapshot snap
        .u3).unitAtSnapshot snap .u4).unitAtSnapshot snap .u5).unitAtSnapshot snap .u6
    r = units.decideMode snap
      ∧ r.gauge.snapshot = some { snap with mode := r.gauge.mode }
      ∧ snap.time = p.accounting.clock ∧ snap.inner = q.findInner.level
      ∧ snap.outer = q.findOuter.level ∧ snap.floatHigh = p.gauge.effHigh ∧ snap.floatLow = p.gauge.effLow
      ∧ r.gauge.innerQuality = q.findInner.quality ∧ r.gauge.outerQuality = q.findOuter.quality
      ∧ r.gauge.rack = rackAfter p.config.station snap.rackLoss p.gauge.rack
      ∧ r.gauge.heldInner = renewHeld p.accounting.uptime q.findInner p.gauge.heldInner
      ∧ r.gauge.heldOuter = renewHeld p.accounting.uptime q.findOuter p.gauge.heldOuter
      ∧ r.gauge.roundTimer = some ⟨if r.gauge.mode = .slow then 10 else 1, p.accounting.uptime⟩
      ∧ r.roundDue = false
      ∧ (r.gauge.mode = .slow ↔
          (∀ u : UnitNo, (r.unit u).state = .idle ∨ (r.unit u).state = .offline
              ∨ ((r.unit u).state = .tripped ∧ (r.unit u).run = false))
            ∧ r.arbiter.queue = [] ∧ r.sluice.state = .closed ∧ r.gauge.effHigh = false
            ∧ r.gauge.effLow = false ∧ r.supervision.mains = .ok
            ∧ (snap.innerQuality = .both ∨ snap.innerQuality = .single)
            ∧ ∃ l : Int, snap.inner = some l ∧ l < r.plan.target - r.plan.band)

/-- The four float events (R12) and the immediate round of each (R15): the effective pair, what is recorded, and what
is forwarded to the dispatch controller. That FLOAT_HIGH and FLOAT_CONFLICT are recorded before the dispatch controller
acts is the model's choice (log 37). -/
def Obligations.FloatLinesActAndStartRound : Prop :=
  ∀ (cur : Currents) (s : State),
    let g := s.part.gauge
    let fast (q : Part) : Part := { q with roundDue := false, gauge.mode := .fast }.round cur
    let floats (high low : Bool) : Part :=
      { s.part with
        gauge := { g with floatHigh := high, floatLow := low, effHigh := high && !low, effLow := low } }
    (g.floatHigh = false → g.floatLow = false →
        exec (.floatHighAsserted cur) s
          = .next (s.withPart (fast
              (((floats true false).record .floatHigh none none).floatHighForwarded))))
      ∧ (g.floatHigh = false → g.floatLow = true →
        exec (.floatHighAsserted cur) s
          = .next (s.withPart (fast ((floats true true).record .floatConflict none none))))
      ∧ (g.floatHigh = false → g.floatLow = false →
        exec (.floatLowAsserted cur) s
          = .next (s.withPart (fast (((floats false true).record .floatLow none none).protect))))
      ∧ (g.floatHigh = true → g.floatLow = false →
        exec (.floatLowAsserted cur) s
          = .next (s.withPart (fast ((((floats true true).record .floatLow none none).record
              .floatConflict none none).protect))))
      ∧ (g.floatHigh = true → g.floatLow = true →
        exec (.floatLowReleased cur) s
          = .next (s.withPart (fast
              (((floats true false).record .floatHigh none none).floatHighForwarded))))
      ∧ (g.floatHigh = false → g.floatLow = true →
        exec (.floatLowReleased cur) s = .next (s.withPart (fast (floats false false))))
      ∧ (g.floatHigh = true →
        exec (.floatHighReleased cur) s = .next (s.withPart (fast (floats false g.floatLow))))

/-! ### Pump curves and head (chapter 2) -/

/-- Flow, power and the head-limited flag from a curve of rising heads: below point 0, at a point, between two points,
above the last (R22, R23, R24). -/
def Rules.CurveReadings : Prop :=
  ∀ (curve : List CurvePoint) (h : Nat), headsRise curve = true →
    (∀ (a : CurvePoint) (rest : List CurvePoint), curve = a :: rest → h < a.head →
        readCurve curve h = ⟨a.flow, a.power, false⟩)
      ∧ (∀ a ∈ curve, h = a.head → readCurve curve h = ⟨a.flow, a.power, false⟩)
      ∧ (∀ (before after : List CurvePoint) (a b : CurvePoint), curve = before ++ a :: b :: after →
          a.head < h → h < b.head →
          ((readCurve curve h).flow : Int)
              = a.flow + Int.tdiv (((b.flow : Int) - a.flow) * ((h : Int) - a.head)) ((b.head : Int) - a.head)
            ∧ ((readCurve curve h).power : Int)
              = a.power
                + Int.tdiv (((b.power : Int) - a.power) * ((h : Int) - a.head)) ((b.head : Int) - a.head)
            ∧ (readCurve curve h).limited = false)
      ∧ ∀ a : CurvePoint, curve.getLast? = some a → a.head < h →
          readCurve curve h = ⟨0, a.power, true⟩

/-- Every estimate lies between the least and the greatest value of the curve's points, the flow of a head-limited
unit being 0 (R25). -/
def Rules.EstimatesStayWithinCurve : Prop :=
  ∀ (curve : List CurvePoint) (h lowFlow highFlow lowPower highPower : Nat), curve ≠ [] →
    headsRise curve = true →
    (∀ a ∈ curve, lowFlow ≤ a.flow ∧ a.flow ≤ highFlow ∧ lowPower ≤ a.power ∧ a.power ≤ highPower) →
    ((readCurve curve h).limited = true → (readCurve curve h).flow = 0)
      ∧ ((readCurve curve h).limited = false →
          lowFlow ≤ (readCurve curve h).flow ∧ (readCurve curve h).flow ≤ highFlow)
      ∧ lowPower ≤ (readCurve curve h).power ∧ (readCurve curve h).power ≤ highPower

/-- The derived values of all six units after a round: the head from the levels of its snapshot, from the fallback
head, or kept, clamped to 0 to 30,000 mm, and the readings at that head (R19, R20, R21). -/
def Rules.HeadsAfterRound : Prop :=
  ∀ (p : Part) (cur : Currents) (u : UnitNo),
    let q := p.sampleChannels cur
    let r := p.unitRecord u
    let d := (p.round cur).curves.get u
    let read := readCurve r.curve d.head
    (d.flow = read.flow ∧ d.power = read.power ∧ d.limited = read.limited)
      ∧ (q.findInner.level = none → d.head = (p.curves.get u).head ∧ d.basis = (p.curves.get u).basis)
      ∧ (∀ i o : Int, q.findInner.level = some i → q.findOuter.level = some o →
          (q.findOuter.quality = .ok ∨ q.findOuter.quality = .held) →
          (d.head : Int) = max 0 (min 30000 (o - i + r.loss))
            ∧ d.basis = (if q.findOuter.quality = .ok then .outerOk else .outerHeld))
      ∧ (∀ i : Int, q.findInner.level = some i →
          (q.findOuter.quality = .lost ∨ q.findOuter.quality = .init) →
          d.head = min 30000 (p.config.station.fallbackHead + r.loss) ∧ d.basis = .fallback)

/-- The fallback head in use: a round whose snapshot forms heads on the FALLBACK basis takes it from the station record,
and every other round keeps it (R18). -/
def Rules.FallbackHeadFirstUsed : Prop :=
  ∀ (p : Part) (cur : Currents),
    let q := p.sampleChannels cur
    let outer := q.findOuter.quality
    (q.findInner.level.isSome = true → (outer = .lost ∨ outer = .init) →
        (p.round cur).fallbackInUse = p.config.station.fallbackHead)
      ∧ (q.findInner.level = none ∨ ((outer = .ok ∨ outer = .held) ∧ q.findOuter.level.isSome = true) →
        (p.round cur).fallbackInUse = p.fallbackInUse)

/-- The derived values of a unit from a snapshot that is given (R19, R20): the head from its levels, from the fallback
head, or kept, and the readings at that head. -/
def Rules.HeadsByTable : Prop :=
  ∀ (fallback : Nat) (r : UnitRecord) (snap : Snapshot) (old : Derived),
    let d := deriveFrom fallback r snap old
    let read := readCurve r.curve d.head
    (d.flow = read.flow ∧ d.power = read.power ∧ d.limited = read.limited)
      ∧ (snap.inner = none → d.head = old.head ∧ d.basis = old.basis)
      ∧ (∀ i o : Int, snap.inner = some i → snap.outer = some o →
          (snap.outerQuality = .ok ∨ snap.outerQuality = .held) →
          (d.head : Int) = max 0 (min 30000 (o - i + r.loss))
            ∧ d.basis = (if snap.outerQuality = .ok then .outerOk else .outerHeld))
      ∧ (∀ i : Int, snap.inner = some i → (snap.outerQuality = .lost ∨ snap.outerQuality = .init) →
          d.head = min 30000 (fallback + r.loss) ∧ d.basis = .fallback)

/-- The records of changed level qualities and of a changed rack state (R7, R8, R10, R13). That they stand inner before
outer before rack is the model's choice (log 44). -/
def Rules.QualityChangesRecorded : Prop :=
  ∀ p : Part,
    let inner := p.findInner
    let outer := p.findOuter
    let snap := p.snapshotOf inner outer
    p.formSnapshot.events
        = (((p.recordSome (p.innerEvent inner)).recordSome (p.outerEvent outer)).recordSome
            (rackEvent p.gauge.rack snap.rack snap.rackLoss)).events
      ∧ (inner.quality = p.gauge.innerQuality ∨ inner.quality = .init → p.innerEvent inner = none)
      ∧ (p.gauge.innerQuality = .init → inner.quality = .both ∨ inner.quality = .single →
          p.innerEvent inner = none)
      ∧ (∀ a b : Int, p.channelLevel .ga = some a → p.channelLevel .gb = some b →
          inner.quality = .disagree → p.gauge.innerQuality ≠ .disagree →
          p.innerEvent inner = some (.innerDisagree, some (a - b)))
      ∧ (inner.quality = .single → p.gauge.innerQuality ≠ .single → p.gauge.innerQuality ≠ .init →
          p.innerEvent inner
            = some (.innerSingle, some (if p.channelLevel .ga = none then 2 else 1)))
      ∧ (inner.quality = .held → p.gauge.innerQuality ≠ .held →
          p.innerEvent inner = some (.innerHeld, inner.level))
      ∧ (inner.quality = .lost → p.gauge.innerQuality ≠ .lost →
          p.innerEvent inner = some (.innerLost, none))
      ∧ (inner.quality = .both → p.gauge.innerQuality ≠ .both → p.gauge.innerQuality ≠ .init →
          p.innerEvent inner = some (.innerRestored, inner.level))
      ∧ (outer.quality = p.gauge.outerQuality ∨ outer.quality = .init → p.outerEvent outer = none)
      ∧ (outer.quality = .held → p.gauge.outerQuality ≠ .held →
          p.outerEvent outer = some (.outerHeld, outer.level))
      ∧ (outer.quality = .lost → p.gauge.outerQuality ≠ .lost →
          p.outerEvent outer = some (.outerLost, none))
      ∧ (outer.quality = .ok → p.gauge.outerQuality = .init → p.outerEvent outer = none)
      ∧ (outer.quality = .ok → (p.gauge.outerQuality = .held ∨ p.gauge.outerQuality = .lost) →
          p.outerEvent outer = some (.outerRestored, outer.level))

/-! ### Pump units (chapter 3) -/

/-- A change of state sets the three output lines from the new state (R31), cancels every timer that the table of R30
does not list for it, and changes nothing else. -/
def Rules.StateChangeSetsLines : Prop :=
  ∀ (p : Part) (u : UnitNo) (st : UnitState),
    p.enterUnit u st
      = p.modUnit u fun pu =>
        { pu with
          state := st
          startOut := decide (st = .starting ∨ st = .running)
          primeOut := decide (st = .priming)
          airvalveOut :=
            decide ((p.unitRecord u).outlet.isSiphon = true
              ∧ (st = .priming ∨ st = .starting ∨ st = .running))
          primeTimer := if st = .priming then pu.primeTimer else none
          startTimer := if st = .starting then pu.startTimer else none
          stopTimer := if st = .stopping then pu.stopTimer else none
          minRunTimer := if st = .running then pu.minRunTimer else none
          restTimer := if st = .resting then pu.restTimer else none
          runLossTimer := if st = .running then pu.runLossTimer else none
          dwellTimer := if st = .running then pu.dwellTimer else none }

/-- A unit takes a grant: PRIMING for a SIPHON unit whose PRIMED is released, STARTING otherwise (R32); and the entry
into STARTING (R34) with the count of the start (R166). A unit whose outlet code names none works as one or the other,
which a free value says (log 13). -/
def Rules.GrantTakenByUnit : Prop :=
  ∀ (p : Part) (u : UnitNo),
    let r := p.unitRecord u
    let now := p.accounting.uptime
    let q := p.modUnit u fun pu => { pu with lastGrant := some now, minRunElapsed := false }
    (Outlet.siphon.isSiphon = true ∧ Outlet.flap.isSiphon = false)
      ∧ (r.outlet.isSiphon = true → (p.unit u).primed = false →
        p.takeGrant u
          = (q.enterUnit u .priming).modUnit u fun pu =>
            { pu with primeTimer := some ⟨r.primeTimeout, now⟩ })
      ∧ (r.outlet.isSiphon = false ∨ (p.unit u).primed = true → p.takeGrant u = q.enterStarting u)
      ∧ p.enterStarting u
        = { (p.enterUnit u .starting).modUnit u fun pu =>
              { pu with
                startTimer := some ⟨r.startTimeout, now⟩
                history := (if pu.history.length < 12 then pu.history else pu.history.drop 1) ++ [now] } with
            accounting.totals.startTotals :=
              p.accounting.totals.startTotals.set u
                (min (p.accounting.totals.startTotals.get u + 1) 4294967295) }

/-- PRIMED: its assertion ends priming; in every other state, and at its release, only the filtered level moves
(R33). A start timer of 0 s expires at once (R30), which only a loaded image can bring; where in the event it does is
the model's choice (log 28). -/
def Rules.PrimedLineEndsPriming : Prop :=
  ∀ (u : UnitNo) (s : State),
    let p := s.part
    let on := p.modUnit u fun pu => { pu with primed := true }
    ((p.unit u).primed = false → (p.unit u).state = .priming → (p.unitRecord u).startTimeout ≠ 0 →
        exec (.primedAsserted u) s = .next (s.withPart (on.enterStarting u).takeUnseenRound))
      ∧ ((p.unit u).primed = false → (p.unit u).state = .priming → (p.unitRecord u).startTimeout = 0 →
        exec (.primedAsserted u) s
          = .next (s.withPart ((on.enterStarting u).failStart u .startFail .startFail).takeUnseenRound))
      ∧ ((p.unit u).primed = false → (p.unit u).state ≠ .priming →
        exec (.primedAsserted u) s = .next (s.withPart on.takeUnseenRound))
      ∧ exec (.primedReleased u) s
        = .next (s.withPart (p.modUnit u fun pu => { pu with primed := false }))

/-- A prime or start timer of 0 s expires in the grant that starts it (R30), which only a loaded image can bring: the
start fails by R36. Where in the grant it does is the model's choice (log 28). -/
def Rules.StartTimersOfZero : Prop :=
  ∀ (p : Part) (u : UnitNo), p.arbiter.slot = some u → p.arbiter.shed = .normal →
    let r := p.unitRecord u
    let st := (p.unit u).state
    (st = .priming → r.primeTimeout = 0 → p.startIfZero u = p.failStart u .primeFail .primeFail)
      ∧ (st = .starting → r.startTimeout = 0 → p.startIfZero u = p.failStart u .startFail .startFail)
      ∧ (¬(st = .priming ∧ r.primeTimeout = 0) → ¬(st = .starting ∧ r.startTimeout = 0) →
        p.startIfZero u = p)

/-- RUN asserted in STARTING ends the start (R35). -/
def Rules.RunEndsStart : Prop :=
  ∀ (u : UnitNo) (s : State),
    let p := s.part
    let r := p.unitRecord u
    (p.unit u).run = false → (p.unit u).state = .starting →
      exec (.runAsserted u) s
        = .next (s.withPart
          ((((((p.modUnit u fun pu => { pu with run := true }).enterUnit u .running).modUnit u fun pu =>
              { pu with
                minRunTimer := if r.minRun = 0 then none else some ⟨r.minRun, p.accounting.uptime⟩
                minRunElapsed := pu.minRunElapsed || decide (r.minRun = 0)
                retriesLeft := r.startRetries }).record .unitRunning (some u)
            ((p.unit u).lastGrant.map fun t => ((p.accounting.uptime - t).toNat : Int))).freeSlot
            u).takeUnseenRound))

/-- RUN asserted in the other states: an uncommanded run trips the unit (R42); it cancels a run-loss timer in RUNNING
(R43); it changes nothing in STOPPING; in TRIPPED the unit is delivering again (R47, R48). That the grant check for the
head that was removed comes after the record and before the arbiter is told of the load is the model's choice (log
15). -/
def Rules.RunAssertedOutsideStarting : Prop :=
  ∀ (u : UnitNo) (s : State),
    let p := s.part
    let st := (p.unit u).state
    let on := p.modUnit u fun pu => { pu with run := true }
    (p.unit u).run = false →
      ((st = .offline ∨ st = .idle ∨ st = .queued ∨ st = .priming ∨ st = .resting) →
          exec (.runAsserted u) s
            = .next (s.withPart
              (((((((((on.dropEntry u).freeSlot u).enterUnit u .tripped).modUnit u fun pu =>
                  { pu with fault := some .uncommandedRun, retryPending := false }).record .uncommandedRun
                (some u) (some (st.code : Int))).checkIf (p.headIs u)).setReserved u (p.power u)).loadsMoved).takeUnseenRound)))
        ∧ (st = .running → (p.unit u).runLossTimer.isSome = true →
          exec (.runAsserted u) s
            = .next (s.withPart
              (((on.modUnit u fun pu => { pu with runLossTimer := none }).setReserved u
                (p.power u)).loadsMoved).takeUnseenRound))
        ∧ (st = .running → (p.unit u).runLossTimer = none →
          exec (.runAsserted u) s = .next (s.withPart on.takeUnseenRound))
        ∧ (st = .stopping → exec (.runAsserted u) s = .next (s.withPart on.takeUnseenRound))
        ∧ (st = .tripped →
          exec (.runAsserted u) s
            = .next (s.withPart ((on.setReserved u (p.power u)).loadsMoved).takeUnseenRound))

/-- RUN released: a run loss in RUNNING (R43), the end of the stop in STOPPING (R40), the end of delivering in TRIPPED
(R47), the line alone elsewhere. A run-loss timer of 0 s expires at once (R30), which only a loaded image can bring; where
in the event it does is the model's choice (log 28). -/
def Rules.RunReleased : Prop :=
  ∀ (u : UnitNo) (s : State),
    let p := s.part
    let st := (p.unit u).state
    let off := p.modUnit u fun pu => { pu with run := false }
    (p.unit u).run = true →
      (st = .running →
          let lost := (off.modUnit u fun pu =>
            { pu with
              runLossTimer := some ⟨(p.unitRecord u).runLossDelay, p.accounting.uptime⟩ }).setReserved u 0
          ((p.unitRecord u).runLossDelay ≠ 0 →
              exec (.runReleased u) s = .next (s.withPart lost.loadsFell.takeUnseenRound))
            ∧ ((p.unitRecord u).runLossDelay = 0 →
              exec (.runReleased u) s
                = .next (s.withPart
                  ((((lost.enterUnit u .tripped).modUnit u fun pu =>
                    { pu with fault := some .lostRun }).record .lostRun (some u) none).loadsFell
                    ).takeUnseenRound)))
        ∧ (st = .stopping →
          exec (.runReleased u) s = .next (s.withPart (off.endStop u).takeUnseenRound))
        ∧ (st = .tripped →
          exec (.runReleased u) s = .next (s.withPart ((off.setReserved u 0).loadsFell).takeUnseenRound))
        ∧ (st ≠ .running → st ≠ .stopping → st ≠ .tripped →
          exec (.runReleased u) s = .next (s.withPart off.takeUnseenRound))

/-- The end of a stop (R40): the load given up, UNIT_STOPPED with the origin's code, the origin cleared, and the next
state by the first row that fits. That the arbiter acts on the fallen load after the record and the next state is the
model's choice (log 15). -/
def Rules.StopEndsByTable : Prop :=
  ∀ (p : Part) (u : UnitNo),
    let q := (((p.setReserved u 0).record .unitStopped (some u)
      ((p.unit u).stopOrigin.map fun o => (o.code : Int))).modUnit u fun pu => { pu with stopOrigin := none })
    ((p.unitRecord u).enabled = false → p.endStop u = (q.enterUnit u .offline).loadsFell)
      ∧ ((p.unitRecord u).enabled = true →
          (p.unit u).stopOrigin = some .mains ∨ p.supervision.mains ≠ .ok →
          p.endStop u = (q.enterUnit u .idle).loadsFell)
      ∧ ((p.unitRecord u).enabled = true → (p.unit u).stopOrigin ≠ some .mains →
          p.supervision.mains = .ok → (p.unitRecord u).minRest ≠ 0 →
          p.endStop u
            = ((q.enterUnit u .resting).modUnit u fun pu =>
                { pu with
                  restTimer := some ⟨(p.unitRecord u).minRest, p.accounting.uptime⟩ }).loadsFell)
      ∧ ((p.unitRecord u).enabled = true → (p.unit u).stopOrigin ≠ some .mains →
          p.supervision.mains = .ok → (p.unitRecord u).minRest = 0 → (p.unit u).retryPending = false →
          p.endStop u = (((q.enterUnit u .resting).enterUnit u .idle)).loadsFell)

/-- Stop orders: in which states and from which origins they are taken (R38), and what taking one does (R39, R45). A
stop timer of 0 s expires at once (R30), which only a loaded image can bring; where in the event it does is the model's
choice (log 28). -/
def Rules.StopOrdersTaken : Prop :=
  ∀ (p : Part) (u : UnitNo) (o : StopOrigin),
    let st := (p.unit u).state
    let taken := st = .priming ∨ st = .starting
      ∨ (st = .running ∧ (o ≠ .dispatch ∨ (p.unit u).minRunElapsed = true))
      ∨ ((st = .idle ∨ st = .offline) ∧ o = .reset)
    let freed := if st = .priming ∨ st = .starting then p.freeSlot u else p
    let q := (if o = .mains then freed.setReserved u 0 else freed).modUnit u fun pu =>
      { pu with stopOrigin := some o }
    (¬taken → p.stopOrder u o = p)
      ∧ (taken → (p.unit u).run = false → p.stopOrder u o = q.endStop u)
      ∧ (taken → (p.unit u).run = true → (p.unitRecord u).stopTimeout ≠ 0 →
          p.stopOrder u o
            = ((q.enterUnit u .stopping).modUnit u fun pu =>
                { pu with
                  stopTimer := some ⟨(p.unitRecord u).stopTimeout, p.accounting.uptime⟩ }).loadsFell)
      ∧ (taken → (p.unit u).run = true → (p.unitRecord u).stopTimeout = 0 →
          p.stopOrder u o
            = (((((q.enterUnit u .stopping).enterUnit u .tripped).modUnit u fun pu =>
                { pu with fault := some .stopFail }).record .stopFail (some u)
                (some (o.code : Int))).modUnit u fun pu => { pu with stopOrigin := none }).loadsFell)

/-- PRIME_FAIL and START_FAIL (R36): the load and the slot given up, the failure recorded with the retries left after
it, then a rest for a retry, or TRIPPED. An immediate round follows where a rest of 0 s ended in an enqueue. That the
arbiter acts on the fallen load after the records and the next state is the model's choice (log 15). -/
def Rules.StartFailures : Prop :=
  ∀ (u : UnitNo) (cur : Currents) (s : State),
    let p := s.part
    let left := (p.unit u).retriesLeft
    let failed (code : EventCode) : Part :=
      ((p.setReserved u 0).freeSlot u).record code (some u) (some ((left - 1 : Nat) : Int))
    let resting (code : EventCode) : Part :=
      (((((failed code).modUnit u fun pu =>
          { pu with retriesLeft := left - 1, retryPending := true }).enterUnit u .resting).modUnit u fun pu =>
          { pu with
            restTimer := some ⟨(p.unitRecord u).minRest, p.accounting.uptime⟩ }).record .retryScheduled
        (some u) (some ((left - 1 : Nat) : Int))).loadsFell
    let tripped (code : EventCode) (f : FaultCode) : Part :=
      (((failed code).enterUnit u .tripped).modUnit u fun pu => { pu with fault := some f }).loadsFell
    let ends (code : EventCode) (f : FaultCode) : Part :=
      if left = 0 then tripped code f
      else if (p.unitRecord u).minRest = 0 then (resting code).endRest u
      else resting code
    ((p.unit u).state = .priming → (p.unit u).primeTimer.isSome = true →
        exec (.primeTimerExpiry u cur) s
          = .next (s.withPart ((ends .primeFail .primeFail).takeDueRound cur)))
      ∧ ((p.unit u).state = .starting → (p.unit u).startTimer.isSome = true →
        exec (.startTimerExpiry u cur) s
          = .next (s.withPart ((ends .startFail .startFail).takeDueRound cur)))
      ∧ p.failStart u .primeFail .primeFail = ends .primeFail .primeFail
      ∧ p.failStart u .startFail .startFail = ends .startFail .startFail

/-- The end of a rest (R37): IDLE without a pending retry; with one, the history is consulted and the unit enqueued
with origin RETRY, or IDLE. -/
def Rules.RestEnds : Prop :=
  ∀ (u : UnitNo) (cur : Currents) (s : State),
    let p := s.part
    let cleared := p.modUnit u fun pu => { pu with retryPending := false, restTimer := none }
    (p.unit u).state = .resting → (p.unit u).restTimer.isSome = true → p.roundDue = false →
      ((p.unit u).retryPending = false →
          exec (.restTimerExpiry u cur) s = .next (s.withPart (p.enterUnit u .idle)))
        ∧ ((p.unit u).retryPending = true → cleared.eligible u true = true →
          exec (.restTimerExpiry u cur) s
            = .next (s.withPart (((cleared.consult u true).enqueue u .retry).takeDueRound cur)))
        ∧ ((p.unit u).retryPending = true → cleared.eligible u true = false →
          exec (.restTimerExpiry u cur) s
            = .next (s.withPart ((cleared.consult u true).enterUnit u .idle)))

/-- The expiries of the stop timer (R40), the min-run timer (R38), the run-loss timer (R43) and the dwell timer
(R50). -/
def Rules.UnitTimerExpiries : Prop :=
  ∀ (u : UnitNo) (s : State),
    let p := s.part
    ((p.unit u).state = .stopping → (p.unit u).stopTimer.isSome = true →
        exec (.stopTimerExpiry u) s
          = .next (s.withPart
            ((((p.enterUnit u .tripped).modUnit u fun pu => { pu with fault := some .stopFail }).record
                .stopFail (some u) ((p.unit u).stopOrigin.map fun o => (o.code : Int))).modUnit u fun pu =>
              { pu with stopOrigin := none })))
      ∧ ((p.unit u).state = .running → (p.unit u).minRunTimer.isSome = true →
        exec (.minRunTimerExpiry u) s
          = .next (s.withPart
            (p.modUnit u fun pu => { pu with minRunTimer := none, minRunElapsed := true })))
      ∧ ((p.unit u).state = .running → (p.unit u).runLossTimer.isSome = true →
        exec (.runLossTimerExpiry u) s
          = .next (s.withPart
            (((p.enterUnit u .tripped).modUnit u fun pu => { pu with fault := some .lostRun }).record
              .lostRun (some u) none)))
      ∧ ((p.unit u).state = .running → (p.unit u).dwellTimer.isSome = true →
        exec (.dwellTimerExpiry u) s
          = .next (s.withPart
            ((((p.modUnit u fun pu => { pu with dwellTimer := none }).record .headLimitStop (some u)
              (some ((p.curves.get u).head : Int))).stopOrder u .headLimit).takeUnseenRound)))

/-- TRIP (R41): recorded with value 0 in OFFLINE and 8 in TRIPPED; in every other state the unit trips with
MOTOR_TRIP, giving up its entry, its slot, and, with RUN released, its load (R48). Its release moves the line alone. That
MOTOR_TRIP is recorded before the grant checks of the removed head and of the fallen load is the model's choice (log
15). -/
def Obligations.TripLine : Prop :=
  ∀ (u : UnitNo) (s : State),
    let p := s.part
    let st := (p.unit u).state
    let on := p.modUnit u fun pu => { pu with trip := true }
    let tripped :=
      ((((on.dropEntry u).freeSlot u).enterUnit u .tripped).modUnit u fun pu =>
        { pu with
          fault := some .motorTrip
          retryPending := false
          stopOrigin := none }).record .motorTrip (some u) (some (st.code : Int))
    ((p.unit u).trip = false → st = .offline →
        exec (.tripAsserted u) s
          = .next (s.withPart (on.record .motorTrip (some u) (some 0)).takeUnseenRound))
      ∧ ((p.unit u).trip = false → st = .tripped →
        exec (.tripAsserted u) s
          = .next (s.withPart (on.record .motorTrip (some u) (some 8)).takeUnseenRound))
      ∧ ((p.unit u).trip = false → st ≠ .offline → st ≠ .tripped → (p.unit u).run = true →
        exec (.tripAsserted u) s
          = .next (s.withPart ((tripped.checkIf (p.headIs u)).loadsFell).takeUnseenRound))
      ∧ ((p.unit u).trip = false → st ≠ .offline → st ≠ .tripped → (p.unit u).run = false →
        exec (.tripAsserted u) s
          = .next (s.withPart
            (((tripped.checkIf (p.headIs u)).setReserved u 0).loadsFell).takeUnseenRound))
      ∧ exec (.tripReleased u) s
        = .next (s.withPart (p.modUnit u fun pu => { pu with trip := false }))

/-- The dwell at a snapshot (R49), and its expiry at once where the dwell is 0 s (R50). -/
def Rules.DwellAtSnapshot : Prop :=
  ∀ (p : Part) (snap : Snapshot) (u : UnitNo),
    let limited := (snap.outerQuality = .ok ∨ snap.outerQuality = .held) ∧ (p.curves.get u).limited = true
    let started := some (Timer.mk (p.unitRecord u).headLimitDwell p.accounting.uptime)
    let dwell (t : Option Timer) : Part := p.modUnit u fun pu => { pu with dwellTimer := t }
    ((p.unit u).state ≠ .running → p.unitAtSnapshot snap u = p)
      ∧ ((p.unit u).state = .running →
          (¬limited → p.unitAtSnapshot snap u = dwell none)
            ∧ (limited → (p.unit u).dwellTimer.isSome = true → p.unitAtSnapshot snap u = p)
            ∧ (limited → (p.unit u).dwellTimer = none → (p.unitRecord u).headLimitDwell ≠ 0 →
                p.unitAtSnapshot snap u = dwell started)
            ∧ (limited → (p.unit u).dwellTimer = none → (p.unitRecord u).headLimitDwell = 0 →
                p.unitAtSnapshot snap u
                  = ((dwell none).record .headLimitStop (some u)
                      (some ((p.curves.get u).head : Int))).stopOrder u .headLimit))

/-- The consultation of the start history (R51) and eligibility with its one START_LIMIT (R52). -/
def Obligations.HistoryConsulted : Prop :=
  ∀ (p : Part) (u : UnitNo) (own : Bool),
    let now := p.accounting.uptime
    let h := (p.unit u).history.filter fun t => decide ((now - t).toNat < 3600)
    let r := p.unitRecord u
    let may := r.enabled = true
      ∧ ((p.unit u).state = .idle ∨ (own = true ∧ (p.unit u).state = .resting))
    let pruned (limit : Bool) : Part :=
      p.modUnit u fun pu => { pu with history := h, limitReported := limit }
    (p.eligible u own = true ↔ may ∧ h.length < r.maxStarts)
      ∧ (h.length < r.maxStarts → p.consult u own = pruned false)
      ∧ (r.maxStarts ≤ h.length → may → (p.unit u).limitReported = false →
          ∀ (oldest : Word32) (rest : List Word32), h = oldest :: rest →
          p.consult u own
            = (pruned true).record .startLimit (some u) (some (3600 - ((now - oldest).toNat : Int))))
      ∧ (r.maxStarts ≤ h.length → (¬may ∨ (p.unit u).limitReported = true) →
          p.consult u own = pruned (p.unit u).limitReported)

/-- ENABLE and DISABLE: where they are taken (R54), what they do and answer (R55). -/
def Obligations.EnableDisable : Prop :=
  ∀ (u : UnitNo) (tag n : Byte) (s : State), n.toNat = u.number → s.part.link.receives = true →
    let p := s.part.arrived
    let st := (p.unit u).state
    let replied (q : Part) : Part :=
      q.answers .unitOrder tag
        [n, codeByte (q.unit u).state.code, codeByte (q.unit u).authority.code]
    let flag (b : Bool) (q : Part) : Part :=
      { q with config.units := q.config.units.set u { p.unitRecord u with enabled := b } }
    let disabled :=
      ((flag false ((p.dropEntry u).modUnit u fun pu =>
        { pu with
          retryPending := false
          fault := none
          stopOrigin := none })).enterUnit u .offline)
    (st = .offline →
        exec (.enable tag n) s
          = .next (s.withPart (replied
            (((flag true p).modUnit u fun pu =>
              { pu with
                fault := none
                retriesLeft := (p.unitRecord u).startRetries
                retryPending := false }).enterUnit u .idle))))
      ∧ (st ≠ .offline →
        exec (.enable tag n) s = .next (s.withPart (p.refuses .unitOrder tag .state)))
      ∧ ((st = .idle ∨ st = .queued ∨ st = .resting ∨ (st = .tripped ∧ (p.unit u).run = false)) →
        exec (.disable tag n) s
          = .next (s.withPart (replied
            (({ disabled with
                supervision.restartSet := p.supervision.restartSet.filter fun v => v != u }).checkIf
              (p.headIs u))).takeUnseenRound))
      ∧ ((st = .offline ∨ st = .priming ∨ st = .starting ∨ st = .running ∨ st = .stopping
            ∨ (st = .tripped ∧ (p.unit u).run = true)) →
        exec (.disable tag n) s
          = .next (s.withPart (p.refuses .unitOrder tag .state).takeUnseenRound))

/-- HAND_START and HAND_STOP: where they are taken (R54) and what they do by state (R56). That the answer is formed
before the immediate round of the enqueue, and that a HAND_START refused LIMIT keeps its consultation, are the model's
choices (log 18, log 19). -/
def Rules.HandOrders : Prop :=
  ∀ (u : UnitNo) (tag n : Byte) (cur : Currents) (s : State), n.toNat = u.number →
    s.part.link.receives = true → s.part.roundDue = false →
    let p := s.part.arrived
    let st := (p.unit u).state
    let replied (q : Part) : Part :=
      q.answers .unitOrder tag
        [n, codeByte (q.unit u).state.code, codeByte (q.unit u).authority.code]
    let hand (q : Part) : Part := q.modUnit u fun pu => { pu with authority := .hand }
    let stopped : Part :=
      { hand p with supervision.restartSet := p.supervision.restartSet.filter fun v => v != u }
    (st ≠ .idle →
        exec (.handStart tag n cur) s = .next (s.withPart (p.refuses .unitOrder tag .state)))
      ∧ (st = .idle → p.eligible u false = true →
        exec (.handStart tag n cur) s
          = .next (s.withPart
            ((replied ((hand (p.consult u false)).enqueue u .hand)).takeDueRound cur)))
      ∧ (st = .idle → p.eligible u false = false →
        exec (.handStart tag n cur) s
          = .next (s.withPart ((p.consult u false).refuses .unitOrder tag .limit)))
      ∧ (st = .queued →
        exec (.handStop tag n) s
          = .next (s.withPart (replied
            (((stopped.dropEntry u).enterUnit u .idle).checkIf (p.headIs u))).takeUnseenRound))
      ∧ ((st = .priming ∨ st = .starting ∨ st = .running) →
        exec (.handStop tag n) s
          = .next (s.withPart (replied (stopped.stopOrder u .hand)).takeUnseenRound))
      ∧ (st = .resting →
        exec (.handStop tag n) s
          = .next (s.withPart (replied
            (stopped.modUnit u fun pu => { pu with retryPending := false }))))
      ∧ ((st = .offline ∨ st = .idle ∨ st = .stopping ∨ st = .tripped) →
        exec (.handStop tag n) s = .next (s.withPart (replied stopped)))

/-- The orders AUTO and CLEAR (R54, R56). -/
def Rules.AutoAndClearOrders : Prop :=
  ∀ (u : UnitNo) (tag n : Byte) (s : State), n.toNat = u.number → s.part.link.receives = true →
    let p := s.part.arrived
    let pu := p.unit u
    let replied (q : Part) : Part :=
      q.answers .unitOrder tag
        [n, codeByte (q.unit u).state.code, codeByte (q.unit u).authority.code]
    let clears := pu.state = .tripped ∧ pu.trip = false ∧ pu.run = false
    let cleared :=
      (p.modUnit u fun v =>
        { v with
          fault := none
          retriesLeft := (p.unitRecord u).startRetries }).record .unitCleared (some u)
        (pu.fault.map fun f => (f.code : Int))
    let resting :=
      (cleared.enterUnit u .resting).modUnit u fun v =>
        { v with restTimer := some ⟨(p.unitRecord u).minRest, p.accounting.uptime⟩ }
    exec (.unitAuto tag n) s
        = .next (s.withPart (replied (p.modUnit u fun v => { v with authority := .auto })))
      ∧ (¬clears → exec (.unitClear tag n) s = .next (s.withPart (p.refuses .unitOrder tag .state)))
      ∧ (clears → (p.unitRecord u).enabled = false →
        exec (.unitClear tag n) s = .next (s.withPart (replied (cleared.enterUnit u .offline))))
      ∧ (clears → (p.unitRecord u).enabled = true → (p.unitRecord u).minRest ≠ 0 →
        exec (.unitClear tag n) s = .next (s.withPart (replied resting)))
      ∧ (clears → (p.unitRecord u).enabled = true → (p.unitRecord u).minRest = 0 →
          pu.retryPending = false →
        exec (.unitClear tag n) s = .next (s.withPart (replied (resting.enterUnit u .idle))))

/-- ASK_UNIT consults the history and reports the unit in 36 bytes, each field at its offset of R187 (R57); a unit number
outside 1 to 6 refuses it, and every unit order, with RANGE (R54, R57). -/
def Obligations.AskUnitAndUnitNumbers : Prop :=
  (∀ (u : UnitNo) (tag n : Byte) (s : State), n.toNat = u.number → s.part.link.receives = true →
      let q := s.part.arrived.consult u false
      let body := q.unitBody u
      let pu := q.unit u
      let d := q.curves.get u
      let holds (off : Nat) (field : List Byte) : Prop := (body.drop off).take field.length = field
      let mark (b : Bool) : Byte := if b then 1#8 else 0#8
      let uptime (off : Nat) (t : Option Word32) : Prop :=
        (∀ w : Word32, t = some w → holds off (1#8 :: beBytes 4 w.toNat))
          ∧ (t = none → holds off [0#8, 0#8, 0#8, 0#8, 0#8])
      exec (.askUnit tag n) s = .next (s.withPart (q.answers .askUnit tag body))
        ∧ body.length = 36
        ∧ holds 0 [n] ∧ holds 1 [codeByte pu.state.code] ∧ holds 2 [codeByte pu.authority.code]
        ∧ (∀ f : FaultCode, pu.fault = some f → holds 3 [codeByte f.code])
        ∧ (pu.fault = none → holds 3 [0#8])
        ∧ holds 4 [codeByte pu.retriesLeft] ∧ holds 5 [mark pu.retryPending]
        ∧ holds 6 [mark pu.minRunElapsed]
        ∧ (∀ o : StopOrigin, pu.stopOrigin = some o → holds 7 [codeByte o.code])
        ∧ (pu.stopOrigin = none → holds 7 [0#8])
        ∧ uptime 8 pu.lastGrant ∧ holds 13 [codeByte pu.history.length] ∧ uptime 14 pu.history.head?
        ∧ holds 19 (beBytes 2 pu.reserved) ∧ holds 21 [mark pu.delivering]
        ∧ holds 22 [mark pu.startOut, mark pu.primeOut, mark pu.airvalveOut]
        ∧ holds 25 [mark pu.run, mark pu.trip, mark pu.primed]
        ∧ holds 28 (beBytes 2 d.head) ∧ holds 30 [codeByte d.basis.code] ∧ holds 31 (beBytes 2 d.flow)
        ∧ holds 33 (beBytes 2 d.power) ∧ holds 35 [mark d.limited])
    ∧ ∀ (tag n : Byte) (cur : Currents) (s : State), (n.toNat = 0 ∨ 6 < n.toNat) →
      s.part.link.receives = true → s.part.roundDue = false →
      let refused (k : RequestKind) : Result := .next (s.withPart (s.part.arrived.refuses k tag .range))
      exec (.askUnit tag n) s = refused .askUnit ∧ exec (.enable tag n) s = refused .unitOrder
        ∧ exec (.disable tag n) s = refused .unitOrder ∧ exec (.handStart tag n cur) s = refused .unitOrder
        ∧ exec (.handStop tag n) s = refused .unitOrder ∧ exec (.unitAuto tag n) s = refused .unitOrder
        ∧ exec (.unitClear tag n) s = refused .unitOrder

/-! ### Inflow and demand (chapter 4) -/

/-- The expiry of the history timer: the record appended, a new interval begun (R62), the estimator state by the
usable window (R63, R64), the inflow computed from it, rounded toward zero and clamped, or kept (R65). Where n × E is 0,
which only a loaded image can bring, the quotient is a free value (log 42), clamped all the same. -/
def Obligations.HistoryTimerClosesInterval : Prop :=
  ∀ s : State,
    let p := s.part
    let st := p.config.station
    let closing : HistoryRecord :=
      ⟨p.accounting.uptime, p.gauge.snapshot.bind (·.inner), p.estimator.intervalVolume,
        p.estimator.closedThroughout⟩
    let ring :=
      (if p.estimator.ring.length < 16 then p.estimator.ring else p.estimator.ring.drop 1) ++ [closing]
    let window := ring.drop (ring.length - (st.window + 1))
    let usable := st.window + 1 ≤ ring.length
      ∧ ∀ r ∈ window, r.level.isSome = true ∧ r.closedThroughout = true
    ∃ e : Estimator, exec .historyTimerExpiry s = .next (s.withPart { p with estimator := e })
      ∧ e.ring = ring ∧ e.intervalVolume = 0 ∧ (e.closedThroughout = true ↔ p.sluice.state = .closed)
      ∧ e.timer = some ⟨st.interval, p.accounting.uptime⟩
      ∧ (usable → e.state = .active)
      ∧ (¬usable → e.inflow = p.estimator.inflow
          ∧ e.state = if p.estimator.state = .warming then .warming else .held)
      ∧ (usable → p.estimator.inflow ≤ 65535 → e.inflow ≤ 65535)
      ∧ (usable → ∀ (oldest newest : HistoryRecord) (later : List HistoryRecord) (first last : Int),
          0 < st.window * st.interval → window = oldest :: later → later.getLast? = some newest →
          oldest.level = some first → newest.level = some last →
          (e.inflow : Int)
            = max 0 (min 65535
                (Int.tdiv ((st.area : Int) * (last - first) + ((later.map (·.volume)).sum : Nat))
                  ((st.window : Int) * st.interval))))

/-! ### Dispatch (chapter 5) -/

/-- Stage 1 sets the reserved load of each delivering unit to its power estimate, 0 while the mains state is not OK
(R45), and hands the six changes to the arbiter together (R75). -/
def Rules.ReestimationReachesArbiter : Prop :=
  ∀ p : Part,
    p.reestimate
      = Part.loadsMoved
          { p with
            units := Six.ofFn fun u =>
              { p.unit u with
                reserved :=
                  if (p.unit u).delivering then if p.supervision.mains = .ok then p.power u else 0
                  else (p.unit u).reserved } }

/-- The evaluation (R74): the timer started again, the ranking formed (R87), stage 1 (R75), and the one stage that
ends it (R76 to R81). An immediate round follows an enqueue (R15). -/
def Obligations.EvaluationTakesFirstStage : Prop :=
  ∀ (cur : Currents) (s : State) (snap : Snapshot),
    let p := s.part
    let st := p.config.station
    let formed : Part :=
      { p with
        dispatcher :=
          { p.dispatcher with
            timer := some ⟨st.evalInterval, p.accounting.uptime⟩
            startOrder := startOrderOf st p.accounting.totals.runSeconds } }
    let q := formed.reestimate
    let order := q.dispatcher.startOrder
    let ends (r : Part) : Prop :=
      exec (.dispatchEvaluation cur) s = .next (s.withPart (r.takeDueRound cur))
    let gated := q.supervision.mode = .held ∨ q.supervision.mains ≠ .ok ∨ q.dispatcher.hold = true
      ∨ snap.innerQuality = .init
    let target := q.plan.target
    q.gauge.snapshot = some snap →
      (gated → ends q)
        ∧ (¬gated → snap.rack = .trip →
          (∀ u : UnitNo,
              q.stopRanking.find? (fun v => decide ((q.unit v).authority = .auto
                ∧ (q.unit v).state = .running)) = some u → ends (q.stopOrder u .rack))
            ∧ ((∀ v ∈ q.stopRanking, (q.unit v).authority = .auto → (q.unit v).state ≠ .running) →
                ends q))
        ∧ (¬gated → snap.rack ≠ .trip → snap.inner = none →
          (q.gauge.effHigh = true → ends (enqueueAll order q))
            ∧ (q.gauge.effHigh = false → ends q))
        ∧ ∀ level : Int, ¬gated → snap.rack ≠ .trip → snap.inner = some level →
          (q.config.station.highLevel ≤ level → ends (enqueueAll order q))
            ∧ (level < q.config.station.highLevel → level ≤ target - q.plan.band →
                ends q.drawdownStage)
            ∧ (level < q.config.station.highLevel → target - q.plan.band < level →
                ends (q.demandStage snap level))

/-- The walks that enqueue (R85): HAND units and units not IDLE are passed over without a consultation; every other
unit is consulted and, where eligible, enqueued with origin DISPATCH; stage 7 stops at the first. -/
def Rules.EnqueueWalks : Prop :=
  ∀ (u : UnitNo) (us : List UnitNo) (p : Part),
    let asked := (p.unit u).authority = .auto ∧ (p.unit u).state = .idle
    let joined := (p.consult u false).enqueue u .dispatch
    (enqueueAll [] p = p ∧ enqueueFirst [] p = p)
      ∧ (¬asked → enqueueAll (u :: us) p = enqueueAll us p
          ∧ enqueueFirst (u :: us) p = enqueueFirst us p)
      ∧ (asked → p.eligible u false = true → enqueueAll (u :: us) p = enqueueAll us joined
          ∧ enqueueFirst (u :: us) p = joined)
      ∧ (asked → p.eligible u false = false →
          enqueueAll (u :: us) p = enqueueAll us (p.consult u false)
            ∧ enqueueFirst (u :: us) p = enqueueFirst us (p.consult u false))

/-- Stage 7: the demand formed and kept (R67, R81), then the start test, the withdraw test or the stop test decides
the one act (R82, R83, R84). Where τ is 0, which only a loaded image can bring, the quotient of the demand is a free
value (log 42), and the tests take the demand it gives. -/
def Rules.DemandStageActs : Prop :=
  ∀ (p : Part) (snap : Snapshot) (level : Int),
    ∃ demand : Nat,
      let st := p.config.station
      let q : Part := { p with dispatcher.demand := demand }
      let flow (u : UnitNo) : Nat := if (p.unit u).delivering then (p.curves.get u).flow else 0
      let supplied := flow .u1 + flow .u2 + flow .u3 + flow .u4 + flow .u5 + flow .u6
      let isDispatch (e : QueueEntry) : Bool :=
        decide (e.origin = .dispatch ∧ (p.unit e.unit).authority = .auto)
      let waits := ∃ e ∈ p.arbiter.queue, isDispatch e = true
      let starts := p.plan.target < level ∧ supplied + st.hysteresis < demand ∧ ¬waits
        ∧ snap.rack = .clear ∧ p.sluice.state = .closed
      let withdraws := waits ∧ demand ≤ supplied
      let candidate := p.dispatcher.startOrder.reverse.find? fun u =>
        decide ((p.unit u).authority = .auto ∧ (p.unit u).state = .running
          ∧ (p.unit u).minRunElapsed = true)
      demand ≤ 65535
        ∧ (0 < st.drawdown →
          (demand : Int)
            = max 0 (min 65535
                (p.estimator.inflow + Int.tdiv ((st.area : Int) * (level - p.plan.target)) st.drawdown)))
        ∧ (starts → p.demandStage snap level = enqueueFirst p.dispatcher.startOrder q)
        ∧ (¬starts → withdraws → ∀ e : QueueEntry,
            (p.arbiter.queue.filter isDispatch).getLast? = some e →
            p.demandStage snap level
              = ((q.dropEntry e.unit).enterUnit e.unit .idle).checkIf (q.headIs e.unit))
        ∧ (¬starts → ¬withdraws → ∀ u : UnitNo, candidate = some u →
            (demand + st.hysteresis + flow u ≤ supplied →
                p.demandStage snap level = q.stopOrder u .dispatch)
              ∧ (supplied < demand + st.hysteresis + flow u → p.demandStage snap level = q))
        ∧ (¬starts → ¬withdraws → candidate = none → p.demandStage snap level = q)

/-- Stage 6: every DISPATCH entry withdrawn, its unit IDLE, the others kept in order, then one stop order to the
first AUTO unit in stop order that runs past its min-run (R80). That the entries leave together, with one grant check
after them, is the model's choice (log 20). -/
def Rules.DrawdownWithdrawsAndStops : Prop :=
  ∀ p : Part,
    let isDispatch (e : QueueEntry) : Bool :=
      decide (e.origin = .dispatch ∧ (p.unit e.unit).authority = .auto)
    let kept := p.arbiter.queue.filter fun e => !isDispatch e
    let idled : Part :=
      { p with
        arbiter.queue := kept
        units := Six.ofFn fun u =>
          if p.arbiter.queue.any fun e => isDispatch e && e.unit == u then
            PumpUnit.enter (p.unitRecord u).outlet .idle (p.unit u)
          else p.unit u }
    let q := if (p.arbiter.queue.head?.map isDispatch) = some true then idled.grantCheck else idled
    let candidate := q.dispatcher.startOrder.reverse.find? fun u =>
      decide ((q.unit u).authority = .auto ∧ (q.unit u).state = .running
        ∧ (q.unit u).minRunElapsed = true)
    (∀ u : UnitNo, candidate = some u → p.drawdownStage = q.stopOrder u .dispatch)
      ∧ (candidate = none → p.drawdownStage = q)

/-- The ranking: in ROTATE the six units by run seconds, least first, equal ones by number (R86); in FIXED the fixed
order; the stop order is the start order reversed (R87). A mode code that names none ranks as one or the other, which a
free value says, and a number of the fixed order that numbers no unit takes no place; both are the model's choice (log
13). -/
def Rules.RankingOrders : Prop :=
  (RankingMode.rotate.isRotate = true ∧ RankingMode.fixed.isRotate = false)
    ∧ (∀ (st : StationRecord) (run : Six Nat), st.rankingMode.isRotate = true →
      (startOrderOf st run).Perm UnitNo.all
        ∧ (startOrderOf st run).Pairwise fun a b =>
          run.get a < run.get b ∨ (run.get a = run.get b ∧ a.number < b.number))
    ∧ (∀ (st : StationRecord) (run : Six Nat), st.rankingMode.isRotate = false →
      startOrderOf st run = st.fixedOrder.filterMap fun b => UnitNo.ofNumber b.toNat)
    ∧ ∀ p : Part, p.stopRanking = p.dispatcher.startOrder.reverse
      ∧ p.formRanking
        = { p with
            dispatcher.startOrder := startOrderOf p.config.station p.accounting.totals.runSeconds }

/-- The stop-level protection (R88), the clearing of the hold (R90), and what the protection leaves: an empty queue and
the low-water hold. That STOP_LEVEL is recorded after the records of the protection itself is the model's choice (log
38). -/
def Rules.StopLevelAndHold : Prop :=
  ∀ (p : Part) (snap : Snapshot),
    let stop := p.config.station.stopLevel
    let recovered := snap.floatLow = false
      ∧ ∀ level : Int, snap.inner = some level → stop + 100 ≤ level
    (∀ level : Int, snap.inner = some level → level ≤ stop →
        (p.dispatcher.hold = true → p.dispatchAtSnapshot snap = p.protect)
          ∧ (p.dispatcher.hold = false →
            p.dispatchAtSnapshot snap = p.protect.record .stopLevel none (some level)))
      ∧ ((∀ level : Int, snap.inner = some level → stop < level) →
          (p.dispatcher.hold = true → recovered →
              p.dispatchAtSnapshot snap = Part.grantCheck { p with dispatcher.hold := false })
            ∧ ((p.dispatcher.hold = false ∨ ¬recovered) → p.dispatchAtSnapshot snap = p))
      ∧ p.protect.dispatcher.hold = true ∧ p.protect.arbiter.queue = []
      ∧ p.protect
        = { (stopAll .lowWater [.u1, .u2, .u3, .u4, .u5, .u6] p).emptyQueue with
            dispatcher.hold := true }

/-- The orders and the emptied queue of a protection, or of a mains loss: a walk gives each unit in PRIMING, STARTING or
RUNNING a stop order and passes over the others (R88, R153); an emptied queue leaves every unit that had an entry in
IDLE (R98), entered by the change of state of R30 and R31. -/
def Rules.StopOrdersAndEmptiedQueue : Prop :=
  (∀ (o : StopOrigin) (u : UnitNo) (us : List UnitNo) (p : Part),
      let st := (p.unit u).state
      let stops := st = .priming ∨ st = .starting ∨ st = .running
      stopAll o [] p = p ∧ (stops → stopAll o (u :: us) p = stopAll o us (p.stopOrder u o))
        ∧ (¬stops → stopAll o (u :: us) p = stopAll o us p))
    ∧ (∀ p : Part,
      p.emptyQueue
        = { p with
            arbiter.queue := []
            units := Six.ofFn fun u =>
              if p.arbiter.queue.any fun e => e.unit == u then
                PumpUnit.enter (p.unitRecord u).outlet .idle (p.unit u)
              else p.unit u })
    ∧ ∀ (p : Part) (u : UnitNo) (st : UnitState),
      p.enterUnit u st = p.modUnit u (PumpUnit.enter (p.unitRecord u).outlet st)

/-- A FLOAT_HIGH assertion forwarded to the dispatch controller (R91): the conflict with a gauge below the target is
recorded; otherwise, and not in HELD, the ranking is formed and every eligible AUTO unit enqueued. -/
def Rules.FloatHighCallsStation : Prop :=
  ∀ p : Part,
    let inner := p.gauge.snapshot.bind (·.inner)
    (∀ level : Int, inner = some level → level < p.plan.target →
        p.floatHighForwarded = p.record .floatGaugeConflict none (some level))
      ∧ ((∀ level : Int, inner = some level → p.plan.target ≤ level) →
          (p.supervision.mode = .held → p.floatHighForwarded = p)
            ∧ (p.supervision.mode ≠ .held →
              p.floatHighForwarded = enqueueAll p.formRanking.dispatcher.startOrder p.formRanking))

/-! ### Start queue, start slot and power (chapter 6) -/

/-- An enqueue (R97): not taken but in IDLE, or in RESTING for a retry; a taken one joins at the tail with the current
uptime, its unit QUEUED, the gauge unit's immediate round triggered (R15), a grant check taken. Where the command of the
event carries no currents, which only a start that fails at once can bring, those of the round are free values (log
4). -/
def Rules.EnqueueTaken : Prop :=
  (∀ (p : Part) (u : UnitNo) (o : QueueOrigin),
      let takes := (p.unit u).state = .idle ∨ ((p.unit u).state = .resting ∧ o = .retry)
      let joined : Part :=
        { p with
          arbiter.queue := p.arbiter.queue ++ [⟨u, o, p.accounting.uptime⟩]
          roundDue := true }
      (¬takes → p.enqueue u o = p) ∧ (takes → p.enqueue u o = (joined.enterUnit u .queued).grantCheck))
    ∧ ∀ (p : Part) (cur : Currents),
      (p.roundDue = false → p.takeDueRound cur = p)
        ∧ (p.roundDue = true →
          p.takeDueRound cur = Part.round { p with roundDue := false, gauge.mode := .fast } cur)
        ∧ (p.roundDue = false → p.takeUnseenRound = p)
        ∧ (p.roundDue = true → ∃ free : Currents,
          p.takeUnseenRound
            = Part.round
                { p with freeCount := p.freeCount + 1, roundDue := false, gauge.mode := .fast } free)

/-- The removal of a unit's entry (R98): the others keep their order, a unit without an entry changes nothing, and the
check that follows is taken where the removed entry was the head. -/
def Rules.EntryRemoved : Prop :=
  ∀ (p : Part) (u : UnitNo),
    (∀ e ∈ (p.dropEntry u).arbiter.queue, e.unit ≠ u)
      ∧ p.dropEntry u = { p with arbiter.queue := p.arbiter.queue.filter fun e => decide (e.unit ≠ u) }
      ∧ ((∀ e ∈ p.arbiter.queue, e.unit ≠ u) → p.dropEntry u = p ∧ p.headIs u = false)
      ∧ (∀ (e : QueueEntry) (behind : List QueueEntry), p.arbiter.queue = e :: behind →
        (p.headIs u = true ↔ e.unit = u))
      ∧ p.checkIf true = p.grantCheck ∧ p.checkIf false = p

/-- A grant check: the station conditions (R102), the head check down the queue (R103), the load test of the head
alone (R104), and the grant (R105). -/
def Obligations.GrantCheckByRules : Prop :=
  ∀ p : Part,
    let ready := p.arbiter.slot = none ∧ p.arbiter.stagger = none ∧ p.supervision.mains = .ok
      ∧ p.dispatcher.hold = false ∧ p.gauge.rack = .clear ∧ p.arbiter.shed = .normal
    let limiting := ∃ snap : Snapshot, p.gauge.snapshot = some snap
      ∧ (snap.outerQuality = .ok ∨ snap.outerQuality = .held)
    (¬ready ∨ p.arbiter.queue = [] → p.grantCheck = p)
      ∧ ∀ (e : QueueEntry) (behind : List QueueEntry), ready → p.arbiter.queue = e :: behind →
        let d := p.curves.get e.unit
        let left : Part := { p with arbiter.queue := behind }
        let held : Part :=
          { left with
            arbiter := { left.arbiter with slot := some e.unit }
            units := p.units.set e.unit { p.unit e.unit with reserved := d.power } }
        (limiting → d.limited = true →
            p.grantCheck
              = Part.grantCheck
                  ((left.enterUnit e.unit .idle).record .headLimitRemoved (some e.unit)
                    (some (d.head : Int))))
          ∧ (¬(limiting ∧ d.limited = true) → p.arbiter.effective < p.arbiter.committed + d.power →
            p.grantCheck = p)
          ∧ (¬(limiting ∧ d.limited = true) → p.arbiter.committed + d.power ≤ p.arbiter.effective →
            p.grantCheck
              = (Part.takeGrant { held with arbiter.committed := held.reservedSum } e.unit).startIfZero
                  e.unit)

/-- The slot freed by its holder starts the stagger (R100); its expiry takes a grant check (R101). A report from a unit
that does not hold the slot changes nothing. -/
def Rules.SlotAndStagger : Prop :=
  (∀ (p : Part) (u : UnitNo),
      (p.arbiter.slot ≠ some u → p.freeSlot u = p)
        ∧ (p.arbiter.slot = some u →
          p.freeSlot u
            = { p with
                arbiter :=
                  { p.arbiter with
                    slot := none
                    stagger := some ⟨p.config.station.stagger, p.accounting.uptime⟩ } }))
    ∧ ∀ s : State, s.part.arbiter.stagger.isSome = true →
      exec .staggerTimerExpiry s
        = .next (s.withPart (Part.grantCheck { s.part with arbiter.stagger := none }).takeUnseenRound)

/-- A move of the reserved loads (R107): committed load becomes their sum; a fall ends a shed that is over (R116) and
takes a grant check, a rise takes the shed test, and an unchanged sum neither. -/
def Rules.CommittedLoadFollows : Prop :=
  ∀ p : Part,
    let sum := p.units.u1.reserved + p.units.u2.reserved + p.units.u3.reserved + p.units.u4.reserved
      + p.units.u5.reserved + p.units.u6.reserved
    let q : Part := { p with arbiter.committed := sum }
    (sum < p.arbiter.committed → p.loadsMoved = q.shedOver.grantCheck ∧ p.loadsFell = q.shedOver.grantCheck)
      ∧ (p.arbiter.committed < sum → p.loadsMoved = q.shedTest)
      ∧ (p.arbiter.committed = sum → p.loadsMoved = p ∧ p.loadsFell = p)
      ∧ (p.arbiter.shed = .shedding → p.arbiter.committed ≤ p.arbiter.effective →
          p.shedOver = { p with arbiter := { p.arbiter with shed := .normal, shedDelay := none } })
      ∧ (p.arbiter.shed = .normal ∨ p.arbiter.effective < p.arbiter.committed → p.shedOver = p)

/-- The shed test (R112), the choice of its target by three walks of the stop order (R113), and the shed (R114). That
SHED_STOP is recorded before the stop order, and that the shed delay is started before the shed, are the model's choices
(log 16, log 17). -/
def Rules.ShedByRules : Prop :=
  ∀ p : Part,
    let order := p.dispatcher.startOrder.reverse
    let running (a : Authority) (u : UnitNo) : Bool :=
      decide ((p.unit u).authority = a ∧ (p.unit u).state = .running ∧ 0 < (p.unit u).reserved)
    let starting (u : UnitNo) : Bool :=
      decide ((p.unit u).state = .priming ∨ (p.unit u).state = .starting)
    let target := ((order.find? (running .auto)).or (order.find? (running .hand))).or (order.find? starting)
    let shedding : Part :=
      { p with
        arbiter :=
          { p.arbiter with
            shed := .shedding
            shedDelay := some ⟨p.config.station.shedDelay, p.accounting.uptime⟩ } }
    (p.arbiter.shed = .shedding ∨ p.arbiter.committed ≤ p.arbiter.effective → p.shedTest = p)
      ∧ (p.arbiter.shed = .normal → p.arbiter.effective < p.arbiter.committed →
          p.shedTest = shedding.shedOne)
      ∧ (∀ u : UnitNo, target = some u →
          p.shedOne
            = (p.record .shedStop (some u)
                (some ((p.arbiter.committed : Int) - p.arbiter.effective))).stopOrder u .shed)
      ∧ (target = none → p.shedOne = p)

/-- The expiry of the shed delay (R115): a further shed and the timer again, or, with the load within the budget, the
timer stopped. That the timer is started before the shed is the model's choice (log 17). -/
def Rules.ShedDelayExpiry : Prop :=
  ∀ s : State,
    let p := s.part
    let again : Part :=
      { p with
        arbiter := { p.arbiter with
          shedDelay := some ⟨p.config.station.shedDelay, p.accounting.uptime⟩ } }
    p.arbiter.shedDelay.isSome = true →
      (p.arbiter.effective < p.arbiter.committed →
          exec .shedDelayTimerExpiry s = .next (s.withPart again.shedOne.takeUnseenRound))
        ∧ (p.arbiter.committed ≤ p.arbiter.effective →
          exec .shedDelayTimerExpiry s
            = .next (s.withPart { p with arbiter := { p.arbiter with shedDelay := none } }))

/-- The effective budget (R108) and what follows its change; the line events of CURTAIL with their records (R110). That
CURTAIL_ON and CURTAIL_OFF are recorded before the arbiter's shed test or grant check is the model's choice (log 15). -/
def Rules.BudgetAndCurtail : Prop :=
  (∀ p : Part,
      let active := p.plan.budget.getD p.config.station.stationBudget
      let budget := if p.arbiter.curtail then min active p.config.station.curtailedBudget else active
      let q : Part := { p with arbiter.effective := budget }
      (p.arbiter.effective < budget → p.reformBudget = q.shedOver.grantCheck)
        ∧ (budget < p.arbiter.effective → p.reformBudget = q.shedTest)
        ∧ (budget = p.arbiter.effective → p.reformBudget = p))
    ∧ ∀ s : State,
      let p := s.part
      let active := p.plan.budget.getD p.config.station.stationBudget
      let low := min active p.config.station.curtailedBudget
      let moved (on : Bool) (budget : Nat) : Part :=
        Part.record { p with arbiter := { p.arbiter with curtail := on, effective := budget } }
          (if on then .curtailOn else .curtailOff) none (some (budget : Int))
      let ends (c : Instr) (on : Bool) (budget : Nat) : Prop :=
        (p.arbiter.effective < budget →
            exec c s = .next (s.withPart (moved on budget).shedOver.grantCheck.takeUnseenRound))
          ∧ (budget < p.arbiter.effective →
            exec c s = .next (s.withPart (moved on budget).shedTest.takeUnseenRound))
          ∧ (budget = p.arbiter.effective → exec c s = .next (s.withPart (moved on budget).takeUnseenRound))
      (p.arbiter.curtail = false → ends .curtailAsserted true low)
        ∧ (p.arbiter.curtail = true → ends .curtailReleased false active)

/-- SET_BUDGET (R109): the value clamped to 5,000 kW into the working copy, the effective budget formed afresh, the
three numbers answered. -/
def Rules.SetBudget : Prop :=
  ∀ (tag : Byte) (budget : Word16) (s : State), s.part.link.receives = true →
    let p := s.part.arrived
    let applied := min budget.toNat 5000
    let q := Part.reformBudget { p with config.station.stationBudget := applied }
    exec (.setBudget tag budget) s
      = .next (s.withPart
        (q.answers .setBudget tag
          (beBytes 2 applied ++ beBytes 2 q.arbiter.effective
            ++ beBytes 2 q.arbiter.committed)).takeUnseenRound)

/-! ### Sluice and screen cleaner (chapter 7) -/

/-- The gate closed (R123) and its arrival (R120): CLOSING under the cause, driven with the travel timer started afresh
while the mains state is OK, waiting otherwise; CLOSED at once where it stands at its closed limit. The estimator's
mark is cleared by the change (R61). -/
def Rules.GateClosed : Prop :=
  ∀ (p : Part) (cause : CloseCause),
    let travel : Option Timer := some ⟨p.config.station.travelTimeout, p.accounting.uptime⟩
    let driven := decide (p.supervision.mains = .ok)
    let closing : Part :=
      { p with
        sluice :=
          { p.sluice with
            state := .closing
            cause := some cause
            driveOpen := false
            driveClose := driven
            travel := if driven then travel else none
            waiting := !driven }
        estimator := { p.estimator with closedThroughout := false } }
    let closed : Part :=
      { closing with
        sluice :=
          { closing.sluice with
            state := .closed
            driveClose := false
            travel := none
            waiting := false } }
    (p.sluice.atClosed = true ∧ p.sluice.atOpen = false →
        p.closeGate cause = closed.record .sluiceClosed none (some (cause.code : Int)))
      ∧ (¬(p.sluice.atClosed = true ∧ p.sluice.atOpen = false) → p.closeGate cause = closing)

/-- The decisions of the sluice controller at a snapshot: the open decision with every condition of R121, the close
decision with the first cause of R122, nothing otherwise. -/
def Rules.SluiceDecidesAtSnapshot : Prop :=
  ∀ (p : Part) (snap : Snapshot),
    let st := p.config.station
    let opens := p.sluice.mode = .auto ∧ snap.outerQuality = .ok ∧ p.plan.inhibit = false
      ∧ p.supervision.mains = .ok
      ∧ ∃ inner outer : Int, snap.inner = some inner ∧ snap.outer = some outer
        ∧ (st.openMargin : Int) ≤ inner - outer ∧ p.plan.target < inner
    let opening : Part :=
      { p with
        sluice :=
          { p.sluice with
            state := .opening
            cause := none
            driveOpen := true
            driveClose := false
            travel := some ⟨st.travelTimeout, p.accounting.uptime⟩
            waiting := false }
        estimator := { p.estimator with closedThroughout := false } }
    (p.sluice.state = .closed → opens → p.sluiceAtSnapshot snap = opening.testArrival)
      ∧ (p.sluice.state = .closed → ¬opens → p.sluiceAtSnapshot snap = p)
      ∧ (p.sluice.state = .closing ∨ p.sluice.state = .fault → p.sluiceAtSnapshot snap = p)
      ∧ (p.sluice.state = .opened ∨ p.sluice.state = .opening →
          (p.sluice.mode = .keepClosed → p.sluiceAtSnapshot snap = p.closeGate .keepClosed)
            ∧ (p.sluice.mode = .auto →
              (p.plan.inhibit = true → p.sluiceAtSnapshot snap = p.closeGate .inhibit)
                ∧ (p.plan.inhibit = false →
                  (snap.inner = none → p.sluiceAtSnapshot snap = p.closeGate .innerAbsent)
                    ∧ ∀ inner : Int, snap.inner = some inner →
                      (snap.outerQuality ≠ .ok → p.sluiceAtSnapshot snap = p.closeGate .outerNotOk)
                        ∧ (snap.outerQuality = .ok →
                          (inner ≤ p.plan.target - p.plan.band →
                              p.sluiceAtSnapshot snap = p.closeGate .drawdown)
                            ∧ ∀ outer : Int, snap.outer = some outer →
                              p.plan.target - p.plan.band < inner →
                              (inner - outer < st.closeMargin →
                                  p.sluiceAtSnapshot snap = p.closeGate .margin)
                                ∧ ((st.closeMargin : Int) ≤ inner - outer →
                                  p.sluiceAtSnapshot snap = p)))))

/-- The limit lines of the gate: arrival, departure from CLOSED, and no effect elsewhere (R120). That the seconds of
SLUICE_OPENED are the difference of two uptime values is the model's choice (log 9). -/
def Rules.LimitLinesOfGate : Prop :=
  (∀ p : Part,
      let stopped (st : SluiceState) : Sluice :=
        { p.sluice with
          state := st
          driveOpen := false
          driveClose := false
          travel := none
          waiting := false }
      (p.sluice.state = .opening → p.sluice.atOpen = true → p.sluice.atClosed = false →
          p.testArrival
            = Part.record
                { p with
                  sluice := stopped .opened
                  estimator := { p.estimator with closedThroughout := false } } .sluiceOpened none
                (p.sluice.travel.map fun t => ((p.accounting.uptime - t.startedAt).toNat : Int)))
        ∧ (p.sluice.state = .closing → p.sluice.atClosed = true → p.sluice.atOpen = false →
          p.testArrival
            = Part.record { p with sluice := stopped .closed } .sluiceClosed none
                (p.sluice.cause.map fun c => (c.code : Int)))
        ∧ ((p.sluice.state = .opening ∧ (p.sluice.atOpen = false ∨ p.sluice.atClosed = true))
            ∨ (p.sluice.state = .closing ∧ (p.sluice.atClosed = false ∨ p.sluice.atOpen = true))
            ∨ p.sluice.state = .closed ∨ p.sluice.state = .opened ∨ p.sluice.state = .fault →
          p.testArrival = p))
    ∧ ∀ s : State,
      let p := s.part
      let line (atOpen atClosed : Bool) : Part :=
        { p with sluice := { p.sluice with atOpen := atOpen, atClosed := atClosed } }
      (p.sluice.atOpen = false →
          exec .sluiceAtOpenAsserted s = .next (s.withPart (line true p.sluice.atClosed).testArrival))
        ∧ (p.sluice.atOpen = true →
          exec .sluiceAtOpenReleased s = .next (s.withPart (line false p.sluice.atClosed).testArrival))
        ∧ (p.sluice.atClosed = false →
          exec .sluiceAtClosedAsserted s = .next (s.withPart (line p.sluice.atOpen true).testArrival))
        ∧ (p.sluice.atClosed = true → p.sluice.state ≠ .closed →
          exec .sluiceAtClosedReleased s = .next (s.withPart (line p.sluice.atOpen false).testArrival))
        ∧ (p.sluice.atClosed = true → p.sluice.state = .closed →
          exec .sluiceAtClosedReleased s
            = .next (s.withPart
              (((line p.sluice.atOpen false).record .sluiceFault none (some 3)).closeGate .departure)))

/-- The travel timeout (R124), and the mains at the sluice (R125). -/
def Rules.TravelTimeoutAndMains : Prop :=
  (∀ s : State,
      let p := s.part
      p.sluice.travel.isSome = true →
        exec .travelTimerExpiry s
          = .next (s.withPart
            (Part.record
              { p with
                sluice :=
                  { p.sluice with
                    state := .fault
                    driveOpen := false
                    driveClose := false
                    travel := none
                    waiting := false }
                estimator := { p.estimator with closedThroughout := false } } .sluiceFault none
              (some (if p.sluice.state = .opening then 1 else 2)))))
    ∧ ∀ p : Part,
      let waiting : Part :=
        { p with
          sluice :=
            { p.sluice with driveOpen := false, driveClose := false, travel := none, waiting := true } }
      let driven : Part :=
        { p with
          sluice :=
            { p.sluice with
              driveOpen := false
              driveClose := true
              travel := some ⟨p.config.station.travelTimeout, p.accounting.uptime⟩
              waiting := false } }
      (p.sluice.state = .opening → p.sluiceMainsLost = p.closeGate .mains)
        ∧ (p.sluice.state = .closing → p.sluice.waiting = false → p.sluiceMainsLost = waiting)
        ∧ ((p.sluice.state = .closing ∧ p.sluice.waiting = true) ∨ p.sluice.state = .closed
              ∨ p.sluice.state = .opened ∨ p.sluice.state = .fault →
            p.sluiceMainsLost = p)
        ∧ (p.sluice.state = .closing → p.sluice.waiting = true → p.sluiceMainsOk = driven)
        ∧ (p.sluice.state ≠ .closing ∨ p.sluice.waiting = false → p.sluiceMainsOk = p)

/-- The SLUICE_ORDER actions, their refusal and their answer (R126). -/
def Obligations.SluiceOrders : Prop :=
  ∀ (tag : Byte) (s : State), s.part.link.receives = true →
    let p := s.part.arrived
    let replied (q : Part) : Part :=
      q.answers .sluiceOrder tag [codeByte q.sluice.state.code, codeByte q.sluice.mode.code]
    let kept : Part := { p with sluice := { p.sluice with mode := .keepClosed } }
    exec (.sluiceAuto tag) s
        = .next (s.withPart (replied { p with sluice := { p.sluice with mode := .auto } }))
      ∧ (p.sluice.state = .opened ∨ p.sluice.state = .opening →
        exec (.sluiceKeepClosed tag) s = .next (s.withPart (replied (kept.closeGate .order))))
      ∧ (p.sluice.state = .closed ∨ p.sluice.state = .closing ∨ p.sluice.state = .fault →
        exec (.sluiceKeepClosed tag) s = .next (s.withPart (replied kept)))
      ∧ (p.sluice.state = .fault →
        exec (.sluiceClear tag) s = .next (s.withPart (replied (p.closeGate .timeoutClear))))
      ∧ (p.sluice.state ≠ .fault →
        exec (.sluiceClear tag) s = .next (s.withPart (p.refuses .sluiceOrder tag .state)))

/-- The starts of a rake (R129): at a snapshot by its rack loss, at the interval expiry, by order. A rake sets the
cause, asserts RAKE, starts the raking timer and cancels the other two. That an interval expiry met in RAKING or in FAULT,
where no rule lets the interval timer run, starts that timer again is the model's choice (log 34). -/
def Rules.RakeStarts : Prop :=
  ∀ p : Part,
    let may := p.cleaner.state = .idle ∧ p.supervision.mains = .ok
    let raking (q : Part) (cause : RakeCause) : Part :=
      { q with
        cleaner :=
          { q.cleaner with
            state := .raking
            cause := some cause
            rake := true
            raking := some ⟨q.config.station.rakeTimeout, q.accounting.uptime⟩
            interval := none
            pause := none } }
    let again : Option Timer :=
      if p.config.station.rakeInterval = 0 then none
      else some ⟨p.config.station.rakeInterval, p.accounting.uptime⟩
    (∀ snap : Snapshot,
        let fouled := ∃ loss : Int, snap.rackLoss = some loss
          ∧ (p.config.station.cleanThreshold : Int) ≤ loss
        (may → p.cleaner.pause = none → fouled → p.cleanerAtSnapshot snap = raking p .loss)
          ∧ (¬(may ∧ p.cleaner.pause = none ∧ fouled) → p.cleanerAtSnapshot snap = p))
      ∧ (∀ s : State, s.part = p → p.cleaner.interval.isSome = true →
        (may → exec .intervalTimerExpiry s = .next (s.withPart (raking p .interval)))
          ∧ (¬may → exec .intervalTimerExpiry s
              = .next (s.withPart { p with cleaner := { p.cleaner with interval := again } })))
      ∧ ∀ (tag : Byte) (s : State), s.part = p → p.link.receives = true →
        (may → exec (.rakeStart tag) s
            = .next (s.withPart ((raking p.arrived .order).answers .rakeOrder tag [1#8])))
          ∧ (¬may → exec (.rakeStart tag) s
            = .next (s.withPart (p.arrived.refuses .rakeOrder tag .state)))

/-- The ends of a rake: RAKE_DONE, the raking timer's expiry, a mains loss (R130); the pause (R131); CLEAR (R132). -/
def Rules.RakeEnds : Prop :=
  ∀ s : State,
    let p := s.part
    let interval (q : Part) : Option Timer :=
      if q.config.station.rakeInterval = 0 then none
      else some ⟨q.config.station.rakeInterval, q.accounting.uptime⟩
    let idle (q : Part) : Cleaner :=
      { q.cleaner with state := .idle, rake := false, raking := none, interval := interval q }
    let cause := p.cleaner.cause.map fun c => (c.code : Int)
    (p.cleaner.done = false → p.cleaner.state = .raking →
        exec .rakeDoneAsserted s
          = .next (s.withPart
            (Part.record
              { p with cleaner := { idle p with done := true, pause := some ⟨60, p.accounting.uptime⟩ } }
              .rakeDone none cause)))
      ∧ (p.cleaner.done = false → p.cleaner.state ≠ .raking →
        exec .rakeDoneAsserted s
          = .next (s.withPart { p with cleaner := { p.cleaner with done := true } }))
      ∧ exec .rakeDoneReleased s
        = .next (s.withPart { p with cleaner := { p.cleaner with done := false } })
      ∧ (p.cleaner.raking.isSome = true →
        exec .rakingTimerExpiry s
          = .next (s.withPart
            (Part.record
              { p with cleaner := { p.cleaner with state := .fault, rake := false, raking := none } }
              .rakeFault none cause)))
      ∧ exec .pauseTimerExpiry s
        = .next (s.withPart { p with cleaner := { p.cleaner with pause := none } })
      ∧ (p.cleaner.state = .raking → p.cleanerMainsLost = { p with cleaner := idle p })
      ∧ (p.cleaner.state ≠ .raking → p.cleanerMainsLost = p)
      ∧ ∀ tag : Byte, p.link.receives = true →
        (p.cleaner.state = .fault →
            exec (.rakeClear tag) s
              = .next (s.withPart
                (Part.answers { p.arrived with cleaner := idle p.arrived } .rakeOrder tag [0#8])))
          ∧ (p.cleaner.state ≠ .fault →
            exec (.rakeClear tag) s = .next (s.withPart (p.arrived.refuses .rakeOrder tag .state)))

/-! ### Targets and the tide plan (chapter 8) -/

/-- SET_TARGET: the band clamped first, then the target with the band just applied (R135); override, inhibit and plan
left as they were; the targets in force answered (R137). In a window under 40 mm, which only a loaded image can bring,
both are free values (log 42). -/
def Rules.SetTargetClamps : Prop :=
  ∀ (tag : Byte) (target band : Word16) (s : State), s.part.link.receives = true →
    let p := s.part.arrived
    let st := p.config.station
    ∃ (b : Nat) (l : Int),
      let q : Part := { p with plan := { p.plan with target := l, band := b } }
      (40 ≤ st.highLevel - st.stopLevel →
          (b : Int) = max 20 (min (min 2000 (Int.tdiv (st.highLevel - st.stopLevel) 2)) band.toNat)
            ∧ l = max (st.stopLevel + b) (min (st.highLevel - b) target.toInt))
        ∧ exec (.setTarget tag target band) s
          = .next (s.withPart
            (q.answers .setTarget tag
              (beInt 2 l ++ beBytes 2 b ++ word16Bytes p.plan.budget ++ [markByte p.plan.inhibit])))

/-- PLAN_ADD: the tests in their order, and the append (R139). -/
def Rules.PlanAddTests : Prop :=
  ∀ (tag : Byte) (w : PlanWords) (s : State), s.part.link.receives = true →
    let p := s.part.arrived
    let e := planEntryOf w
    let entries := p.plan.entries
    let refused (r : Reason) : Prop :=
      exec (.planAdd tag w) s = .next (s.withPart (p.refuses .planAdd tag r))
    let ordered := ∀ last : PlanEntry, entries.getLast? = some last → last.time.toNat < e.time.toNat
    (e.time.toNat ≤ p.accounting.clock.toNat → refused .range)
      ∧ (p.accounting.clock.toNat < e.time.toNat → ¬ordered → refused .order)
      ∧ (p.accounting.clock.toNat < e.time.toNat → ordered → 32 ≤ entries.length → refused .full)
      ∧ (p.accounting.clock.toNat < e.time.toNat → ordered → entries.length < 32 →
        exec (.planAdd tag w) s
          = .next (s.withPart
            (Part.answers
              { p with plan := { p.plan with entries := entries ++ [e], planState := .waiting } }
              .planAdd tag [codeByte (entries.length + 1), 1#8])))

/-- PLAN_CLEAR (R140), and ASK_PLAN with its refusal of a position above 31 (R141). -/
def Rules.PlanClearAndAskPlan : Prop :=
  ∀ (tag : Byte) (s : State), s.part.link.receives = true →
    let p := s.part.arrived
    let n := p.plan.entries.length
    let cleared : Part := { p with plan := { p.plan with entries := [], planState := .empty } }
    (n = 0 → exec (.planClear tag) s = .next (s.withPart (cleared.answers .planClear tag [0#8])))
      ∧ (0 < n →
        exec (.planClear tag) s
          = .next (s.withPart
            ((cleared.record .planEmpty none (some (n : Int))).answers .planClear tag [codeByte n])))
      ∧ ∀ position : Byte,
        (31 < position.toNat →
            exec (.askPlan tag position) s = .next (s.withPart (p.refuses .askPlan tag .range)))
          ∧ (position.toNat ≤ 31 →
            let page := (p.plan.entries.drop position.toNat).take 16
            exec (.askPlan tag position) s
              = .next (s.withPart
                (p.answers .askPlan tag
                  (beBytes 4 p.accounting.clock.toNat
                    ++ [codeByte p.plan.planState.code, codeByte n]
                    ++ beInt 2 p.plan.target ++ beBytes 2 p.plan.band
                    ++ [markByte p.plan.budget.isSome] ++ beBytes 2 (p.plan.budget.getD 0)
                    ++ [markByte p.plan.inhibit, position, codeByte page.length]
                    ++ page.flatMap encodePlanEntry))))

/-- Activation (R142): entries due leave from the head, the newest is applied field by field (R143), the rest passed
over; PLAN_SKIPPED, PLAN_APPLIED and PLAN_EMPTY are recorded in that order, then the arbiter acts on the override
(R136). That the arbiter acts after PLAN_EMPTY is the model's choice (log 15). In a window under 40 mm, which only a
loaded image can bring, band and target are free values (log 42). -/
def Rules.ActivationAppliesNewest : Prop :=
  (∀ p : Part, (∀ e : PlanEntry, p.plan.entries.head? = some e → p.accounting.clock.toNat < e.time.toNat) →
      p.activate = p)
    ∧ ∀ (p : Part) (skipped waiting : List PlanEntry) (e : PlanEntry),
      p.plan.entries = skipped ++ e :: waiting →
      (∀ d ∈ skipped ++ [e], d.time.toNat ≤ p.accounting.clock.toNat) →
      (∀ d : PlanEntry, waiting.head? = some d → p.accounting.clock.toNat < d.time.toNat) →
      let st := p.config.station
      ∃ (b : Nat) (l : Int),
        let applied : Part :=
          { p with
            plan :=
              { target := l
                band := b
                budget := e.budget.map fun kw => min kw 5000
                inhibit := e.inhibit.getD false
                entries := waiting
                planState := if waiting = [] then .empty else .waiting } }
        let r1 := if skipped = [] then applied
          else applied.record .planSkipped none (some (skipped.length : Int))
        let r2 := r1.record .planApplied none (some l)
        let r3 := if waiting = [] then r2.record .planEmpty none none else r2
        (40 ≤ st.highLevel - st.stopLevel →
            (b : Int)
                = max 20 (min (min 2000 (Int.tdiv (st.highLevel - st.stopLevel) 2)) (e.band.getD p.plan.band))
              ∧ l = max (st.stopLevel + b) (min (st.highLevel - b) e.target))
          ∧ p.activate = r3.reformBudget

/-! ### Supervision, mains and restart (chapter 9) -/

/-- An accepted telegram: the link's gap timer stopped (R178), AUTONOMOUS ended with SUPERVISION_RESUMED (R149), the
supervision timer started again, or stopped with a timeout of 0 (R147). That the receive buffer is emptied is the
model's choice (log 24). -/
def Rules.AcceptedTelegramReachesSupervision : Prop :=
  ∀ p : Part,
    let timer : Option Timer :=
      if p.config.station.supervisionTimeout = 0 then none
      else some ⟨p.config.station.supervisionTimeout, p.accounting.uptime⟩
    let heard : Part := { p with link := { p.link with gap := none, buffer := [] } }
    let resumed : Part :=
      Part.record { heard with supervision := { p.supervision with mode := .supervised } }
        .supervisionResumed none
        (p.supervision.autonomousSince.map fun t => ((p.accounting.uptime - t).toNat : Int))
    (p.supervision.mode ≠ .autonomous →
        p.arrived = { heard with supervision := { p.supervision with timer := timer } })
      ∧ (p.supervision.mode = .autonomous →
        p.arrived
          = { resumed with
              supervision :=
                { p.supervision with mode := .supervised, autonomousSince := none, timer := timer } })

/-- The expiry of the supervision timer enters AUTONOMOUS: mode and time, every unit AUTO, the fallback clamped and
applied with override and inhibit cleared (R145), AUTONOMY_ENTERED with the mode left (R148). That AUTONOMY_ENTERED is
recorded after what the arbiter records of a cleared override is the model's choice (log 39). In a window under 40 mm,
which only a loaded image can bring, band and target are free values (log 42). -/
def Rules.AutonomyEntered : Prop :=
  ∀ s : State,
    let p := s.part
    let st := p.config.station
    p.supervision.timer.isSome = true →
    ∃ (b : Nat) (l : Int),
      let q : Part :=
        { p with
          supervision :=
            { p.supervision with
              mode := .autonomous
              autonomousSince := some p.accounting.uptime
              timer := none }
          units := Six.ofFn fun u => { p.unit u with authority := .auto }
          plan := { p.plan with target := l, band := b, budget := none, inhibit := false } }
      (40 ≤ st.highLevel - st.stopLevel →
          (b : Int) = max 20 (min (min 2000 (Int.tdiv (st.highLevel - st.stopLevel) 2)) st.fallbackBand)
            ∧ l = max (st.stopLevel + b) (min (st.highLevel - b) st.fallbackTarget))
        ∧ exec .supervisionTimerExpiry s
          = .next (s.withPart
            (q.reformBudget.record .autonomyEntered none
              (some (p.supervision.mode.code : Int))).takeUnseenRound)

/-- SET_MODE by the mode it meets (R150). -/
def Rules.SetMode : Prop :=
  ∀ (tag : Byte) (s : State), s.part.link.receives = true →
    let p := s.part.arrived
    let set (m : ControlMode) (code : EventCode) : Part :=
      Part.record { p with supervision := { p.supervision with mode := m } } code none none
    (p.supervision.mode = .supervised →
        exec (.setModeHold tag) s
            = .next (s.withPart ((set .held .holdOn).answers .setMode tag [1#8]))
          ∧ exec (.setModeRelease tag) s = .next (s.withPart (p.refuses .setMode tag .state)))
      ∧ (p.supervision.mode = .held →
        exec (.setModeHold tag) s = .next (s.withPart (p.refuses .setMode tag .state))
          ∧ exec (.setModeRelease tag) s
            = .next (s.withPart ((set .supervised .holdOff).answers .setMode tag [0#8])))
      ∧ p.supervision.mode ≠ .autonomous

/-- The mains loss in the order of its steps (R153), sluice and cleaner told, then the immediate round (R15). That the
sluice controller is told after MAINS_LOST is recorded is the model's choice (log 40). -/
def Rules.MainsLossSteps : Prop :=
  ∀ (cur : Currents) (s : State), s.part.supervision.mainsOk = true →
    let p := s.part
    let lost : Part :=
      { p with
        supervision :=
          { p.supervision with
            restartSet := p.rebuiltRestartSet
            settle := none
            mains := .lost
            lostAt := some p.accounting.uptime
            mainsOk := false } }
    let emptied := (stopAll .mains [.u1, .u2, .u3, .u4, .u5, .u6] lost).emptyQueue
    let unloaded : Part :=
      { emptied with units := Six.ofFn fun u => { emptied.unit u with reserved := 0 } }
    let q := ((unloaded.loadsFell.record .mainsLost none
      (some (p.rebuiltRestartSet.length : Int))).sluiceMainsLost).cleanerMainsLost
    exec (.mainsOkReleased cur) s
      = .next (s.withPart (Part.round { q with roundDue := false, gauge.mode := .fast } cur))

/-- The restart set (R154): its three parts in their order, each unit once, the first part in grant order. -/
def Rules.RestartSetRebuilt : Prop :=
  ∀ p : Part,
    let ago (t : Word32) : Nat := (p.accounting.uptime - t).toNat
    let served (u : UnitNo) : Prop :=
      p.arbiter.slot = some u ∨ (p.unit u).delivering = true
        ∨ ((p.unit u).state = .running ∧ (p.unit u).runLossTimer.isSome = true)
    let waiting := (p.arbiter.queue.filter fun e => e.origin == .restart).map (·.unit)
    let before (a b : UnitNo) : Prop :=
      match (p.unit a).lastGrant, (p.unit b).lastGrant with
      | some x, some y => ago y < ago x ∨ (ago y = ago x ∧ a.number < b.number)
      | some _, none => True
      | none, some _ => False
      | none, none => a.number < b.number
    ∃ first second third : List UnitNo,
      p.rebuiltRestartSet = first ++ second ++ third ∧ p.rebuiltRestartSet.Nodup
        ∧ (∀ u : UnitNo, u ∈ first ↔ served u) ∧ first.Pairwise before
        ∧ second.Sublist waiting ∧ third.Sublist p.supervision.restartSet
        ∧ (∀ u ∈ waiting, u ∈ first ∨ u ∈ second)
        ∧ ∀ u ∈ p.supervision.restartSet, u ∈ p.rebuiltRestartSet

/-- The mains returns (R156), and the restart at settle expiry in the order of its steps (R158). That the rises of the
reserved loads reach the arbiter together, with one shed test, is the model's choice (log 29). -/
def Obligations.MainsReturnAndRestart : Prop :=
  (∀ (cur : Currents) (s : State), s.part.supervision.mainsOk = false →
      let p := s.part
      let back : Part :=
        Part.record
          { p with
            supervision :=
              { p.supervision with
                mainsOk := true
                mains := .settling
                settle := some ⟨p.config.station.settleTime, p.accounting.uptime⟩ } } .mainsBack none
          (p.supervision.lostAt.map fun t => ((p.accounting.uptime - t).toNat : Int))
      exec (.mainsOkAsserted cur) s
        = .next (s.withPart (Part.round { back with roundDue := false, gauge.mode := .fast } cur)))
    ∧ (∀ (cur : Currents) (s : State), s.part.supervision.mains = .settling →
      s.part.supervision.settle.isSome = true →
      let p := s.part
      let q := ((Part.reestimate
        { p with supervision := { p.supervision with mains := .ok, settle := none } }).sluiceMainsOk).grantCheck
      let begun (r : Part) (n : Int) : Part :=
        Part.record { r with supervision := { r.supervision with restartSet := [] } } .restartBegun none
          (some n)
      let walked := restartWalk q.supervision.restartSet 0 q
      (q.gauge.effLow = true →
          exec (.settleTimerExpiry cur) s = .next (s.withPart ((begun q (-1)).takeDueRound cur)))
        ∧ (q.gauge.effLow = false →
          exec (.settleTimerExpiry cur) s
            = .next (s.withPart ((begun walked.1 (walked.2 : Int)).takeDueRound cur))))
    ∧ ∀ (u : UnitNo) (us : List UnitNo) (n : Nat) (p : Part),
      restartWalk [] n p = (p, n)
        ∧ ((p.unit u).state ≠ .idle → restartWalk (u :: us) n p = restartWalk us n p)
        ∧ ((p.unit u).state = .idle → p.eligible u false = true →
          restartWalk (u :: us) n p = restartWalk us (n + 1) ((p.consult u false).enqueue u .restart))
        ∧ ((p.unit u).state = .idle → p.eligible u false = false →
          restartWalk (u :: us) n p = restartWalk us n (p.consult u false))

/-! ### Station clock and run accounting (chapter 10) -/

/-- The accounting second (R163): clock and uptime counted, run seconds of RUNNING units (R164), the litres of
delivering units to the unit volumes, the station volume and the interval volume (R165, R60), the counter image
(R167), then the plan told the new clock (R142). -/
def Obligations.AccountingSecond : Prop :=
  ∀ s : State,
    let p := s.part
    let a := p.accounting
    let litres (u : UnitNo) : Nat := if (p.unit u).delivering then (p.curves.get u).flow else 0
    let sum := litres .u1 + litres .u2 + litres .u3 + litres .u4 + litres .u5 + litres .u6
    let totals : Totals :=
      { runSeconds := Six.ofFn fun u =>
          if (p.unit u).state = .running then min (a.totals.runSeconds.get u + 1) 4294967295
          else a.totals.runSeconds.get u
        volumes := Six.ofFn fun u => min (a.totals.volumes.get u + litres u) 281474976710655
        stationVolume := BitVec.ofNat 48 (a.totals.stationVolume.toNat + sum)
        startTotals := a.totals.startTotals }
    let clock := BitVec.ofNat 32 (a.clock.toNat + 1)
    let uptime := BitVec.ofNat 32 (a.uptime.toNat + 1)
    let q : Part :=
      { p with
        accounting := ⟨clock, uptime, some ⟨1, uptime⟩, totals, ⟨clock, uptime, totals⟩⟩
        estimator := { p.estimator with intervalVolume := p.estimator.intervalVolume + sum } }
    exec .accountingSecond s = .next (s.withPart q.activate.takeUnseenRound)

/-- ASK_COUNTERS is answered in 98 bytes from the image (R167); SET_CLOCK sets the clock and tells the plan (R168);
ZERO_COUNTERS zeroes the totals and those of the image (R169). -/
def Obligations.CountersAndClock : Prop :=
  ∀ (tag : Byte) (s : State), s.part.link.receives = true →
    let p := s.part.arrived
    let i := p.accounting.image
    let counters (u : UnitNo) : List Byte :=
      beBytes 4 (i.totals.runSeconds.get u) ++ beBytes 6 (i.totals.volumes.get u)
        ++ beBytes 4 (i.totals.startTotals.get u)
    let body := beBytes 4 i.clock.toNat ++ beBytes 4 i.uptime.toNat
      ++ beBytes 6 i.totals.stationVolume.toNat ++ counters .u1 ++ counters .u2 ++ counters .u3
      ++ counters .u4 ++ counters .u5 ++ counters .u6
    let zero : Totals := ⟨Six.const 0, Six.const 0, 0, Six.const 0⟩
    exec (.askCounters tag) s = .next (s.withPart (p.answers .askCounters tag body))
      ∧ body.length = 98
      ∧ (∀ clock : Word32,
        let q := Part.activate { p with accounting := { p.accounting with clock := clock } }
        exec (.setClock tag clock) s
          = .next (s.withPart
            (q.answers .setClock tag
              (beBytes 4 clock.toNat ++ beBytes 4 p.accounting.uptime.toNat)).takeUnseenRound))
      ∧ exec (.zeroCounters tag) s
        = .next (s.withPart
          (Part.answers
            { p with
              accounting := { p.accounting with totals := zero, image := { i with totals := zero } } }
            .zeroCounters tag []))

/-! ### Station link (chapter 11) -/

/-- The bytes of a telegram (R171) and its check (R172), with the worked case of the manual; the reply to a request
carries its tag, kind plus 0x80 for an answer, 0x7F with kind and reason for a refusal (R181). -/
def Rules.TelegramLayoutAndCheck : Prop :=
  (∀ (kind tag : Byte) (body : List Byte),
      let covered := BitVec.ofNat 8 body.length :: kind :: tag :: body
      let check := crc16 covered
      telegram kind tag body
          = 0x5A#8 :: covered ++ [BitVec.ofNat 8 (check.toNat / 256), BitVec.ofNat 8 check.toNat]
        ∧ (telegram kind tag body).length = body.length + 6)
    ∧ (∀ (kind tag : Byte) (body : List Byte) (r : Reason),
      replyTelegram kind tag (.answer body) = telegram (kind + 0x80#8) tag body
        ∧ replyTelegram kind tag (.refusal r) = telegram 0x7F#8 tag [kind, BitVec.ofNat 8 r.code])
    ∧ crc16 [] = 0xFFFF#16 ∧ crc16 [0x00#8] = 0xE1F0#16 ∧ crc16 [0x00#8, 0x01#8] = 0x0D2E#16
    ∧ crc16 [0x00#8, 0x01#8, 0x01#8] = 0xEF8C#16
    ∧ ∀ (bs : List Byte) (b : Byte),
      let shift (r : Word16) : Word16 := if r.getLsbD 15 then (r <<< 1) ^^^ 0x1021#16 else r <<< 1
      crc16 (bs ++ [b]) = shift^[8] (crc16 bs ^^^ (b.setWidth 16 <<< 8))

/-- A received byte that completes no telegram (R175, R177, R182): hunting for a marker, appending, the oversize length
byte, discarding, the overrun. -/
def Obligations.BytesReceived : Prop :=
  ∀ (b : Byte) (cur : Currents) (s : State), s.part.roundDue = false →
    let l := s.part.link
    let gap := some l.settings.gapLimit.ms
    let ends (k : Link) : Prop :=
      exec (.byteReceived b cur) s = .next (s.withPart { s.part with link := k })
    (l.rx = .hunting → b ≠ 0x5A#8 → ends l)
      ∧ (l.rx = .hunting → b = 0x5A#8 →
        ends { l with rx := .inTelegram, discarding := false, buffer := [0x5A#8], gap := gap })
      ∧ (l.rx = .inTelegram → l.discarding = false →
        (l.buffer.length = 1 → 240 < b.toNat →
            ends
              { l with
                discarding := true
                buffer := []
                flags := { l.flags with oversize := true }
                gap := gap })
          ∧ (l.buffer.length = 1 → b.toNat ≤ 240 → ends { l with buffer := l.buffer ++ [b], gap := gap })
          ∧ ∀ (m n : Byte) (rest : List Byte), l.buffer = m :: n :: rest →
            rest.length + 3 < n.toNat + 6 → ends { l with buffer := l.buffer ++ [b], gap := gap })
      ∧ (l.rx ≠ .hunting → l.discarding = true → ends { l with gap := gap })
      ∧ (l.rx = .replying → l.discarding = false →
        (b = 0x5A#8 →
            ends { l with discarding := true, flags := { l.flags with overrun := true }, gap := gap })
          ∧ (b ≠ 0x5A#8 → ends l))

/-- The byte that completes a telegram (R178, R179): what follows is the row that the telegram spells, the refusal RANGE
of an action code or record type that names none (R184, R198), the refusal of its kind or of its length, or the check
failure. The part before a due immediate round is that of the row; the round takes the currents of the byte's event. -/
def Obligations.LastByteServesTelegram : Prop :=
  ∀ (b : Byte) (cur : Currents) (s t : State), s.part.link.rx = .inTelegram →
    s.part.link.discarding = false → t.part.roundDue = false →
    (∀ (kind tag : Byte) (body : List Byte), body.length ≤ 240 →
        s.part.link.buffer ++ [b] = telegram kind tag body →
        (∀ (k : RequestKind) (row : Instr), RequestKind.ofByte kind = some k →
            k.bodyFits body.length = true → rowOf k tag body cur = some row →
            ∃ q : Part, exec (.byteReceived b cur) s = .next (s.withPart (q.takeDueRound cur))
              ∧ (exec row s = .next (s.withPart q) ∨ exec row s = .next (s.withPart (q.takeDueRound cur))
                ∨ exec row s = .next (s.withPart q.takeUnseenRound)))
          ∧ (∀ k : RequestKind, RequestKind.ofByte kind = some k → k.bodyFits body.length = true →
            rowOf k tag body cur = none → s.part.roundDue = false →
            exec (.byteReceived b cur) s = .next (s.withPart (s.part.arrived.refuses k tag .range)))
          ∧ (∀ k : RequestKind, RequestKind.ofByte kind = some k → k.bodyFits body.length = false →
            exec (.refusalLength tag kind (BitVec.ofNat 8 body.length)) s = .next t →
            exec (.byteReceived b cur) s = .next t)
          ∧ (RequestKind.ofByte kind = none → exec (.unknownKind tag kind) s = .next t →
            exec (.byteReceived b cur) s = .next t))
      ∧ ∀ (m n hi lo : Byte) (covered : List Byte), s.part.link.buffer ++ [b] = m :: n :: covered ++ [hi, lo] →
        n.toNat ≤ 240 → covered.length = n.toNat + 2 →
        [hi, lo] ≠ crcBytes (n :: covered) → exec .checkFailure s = .next t →
        exec (.byteReceived b cur) s = .next t

/-- The rows of a damaged link: an oversize length (R177), a check failure (R178), the gap (R176), the overrun (R182).
That the receive buffer is emptied at a check failure is the model's choice (log 24), as are OVERSIZE met in HUNTING (log
22) and OVERSIZE with a length of 240 or below, which the hardware cannot meet (log 36). -/
def Rules.LinkFaults : Prop :=
  ∀ s : State,
    let l := s.part.link
    let gap := some l.settings.gapLimit.ms
    let ends (c : Instr) (k : Link) : Prop := exec c s = .next (s.withPart { s.part with link := k })
    (∀ n : Byte, l.receives = true →
        ends (.oversize n)
          { l with
            rx := .inTelegram
            discarding := true
            buffer := []
            flags := { l.flags with oversize := true }
            gap := gap })
      ∧ (l.receives = true →
        ends .checkFailure
          { l with gap := none, buffer := [], rx := .hunting, flags := { l.flags with check := true } })
      ∧ (l.gap.isSome = true →
        (l.rx = .inTelegram → l.discarding = false →
            ends .gapTimerExpiry
              { l with gap := none, rx := .hunting, buffer := [], flags := { l.flags with gap := true } })
          ∧ (l.rx = .inTelegram → l.discarding = true →
            ends .gapTimerExpiry { l with gap := none, rx := .hunting, discarding := false })
          ∧ (l.rx = .replying → l.discarding = true →
            ends .gapTimerExpiry { l with gap := none, discarding := false }))
      ∧ (l.rx = .replying →
        (l.discarding = false →
            ends .overrun
              { l with discarding := true, flags := { l.flags with overrun := true }, gap := gap })
          ∧ (l.discarding = true → ends .overrun { l with gap := gap }))

/-- Acceptance (R179): an unknown kind is accepted and refused KIND; a length that does not fit is refused LENGTH and
not accepted, so that supervision is left alone (R147). That the receive buffer is emptied is the model's choice (log 24),
as are UNKNOWN_KIND with a request kind and REFUSAL_LENGTH with an unknown kind, with a length that fits or with one above
240, which the hardware cannot meet (log 36). -/
def Rules.KindAndLengthRefused : Prop :=
  ∀ (tag kind length : Byte) (s : State), s.part.link.receives = true →
    let p := s.part
    let sends (q : Part) (r : Reason) : Part :=
      { q with
        link :=
          { q.link with
            rx := .replying
            reply := telegram 0x7F#8 tag [kind, BitVec.ofNat 8 r.code]
            direction := true } }
    exec (.unknownKind tag kind) s = .next (s.withPart (sends p.arrived .kind))
      ∧ exec (.refusalLength tag kind length) s
        = .next (s.withPart
          (sends { p with link := { p.link with gap := none, buffer := [] } } .length))
      ∧ ∀ (k : RequestKind) (q : Part) (body : List Byte) (r : Reason),
        q.answers k tag body
            = { q with
                link :=
                  { q.link with
                    rx := .replying
                    reply := telegram (k.byte + 0x80#8) tag body
                    direction := true } }
          ∧ q.refuses k tag r
            = { q with
                link :=
                  { q.link with
                    rx := .replying
                    reply := telegram 0x7F#8 tag [k.byte, BitVec.ofNat 8 r.code]
                    direction := true } }

/-- A telegram that arrives while the link is replying or discarding is lost (R177, R182): no block but the link
controller sees it. That whole telegrams are taken so is the model's choice (log 22). -/
def Rules.TelegramLostWhileReplying : Prop :=
  ∀ (c : Instr) (s : State), bringsTelegram c = true →
    let l := s.part.link
    let gap := some l.settings.gapLimit.ms
    s.part.roundDue = false →
      (l.rx = .replying → l.discarding = false →
          exec c s
            = .next (s.withPart
              { s.part with
                link :=
                  { l with
                    discarding := true
                    flags := { l.flags with overrun := true }
                    gap := gap } }))
        ∧ (l.discarding = true →
          exec c s = .next (s.withPart { s.part with link := { l with gap := gap } }))

/-- The end of a reply (R182) with each after-reply action: new link settings (R173), new class enables (R194), the
restart (R160). -/
def Rules.ReplyEndActs : Prop :=
  ∀ (inp : FieldInputs) (s : State), s.part.link.rx = .replying →
    let p := s.part
    let sent : Link :=
      { p.link with
        rx := if p.link.discarding then .inTelegram else .hunting
        reply := []
        after := none
        direction := false }
    (p.link.after = none → exec (.replyEnd inp) s = .next (s.withPart { p with link := sent }))
      ∧ (∀ r : LinkSettings, p.link.after = some (.newSettings r) →
        exec (.replyEnd inp) s
          = .next (s.withPart
            { p with
              link :=
                { sent with
                  settings := r
                  gap := if p.link.gap.isSome then some r.gapLimit.ms else none } }))
      ∧ (∀ marks : Byte, p.link.after = some (.newEnables marks) →
        exec (.replyEnd inp) s
          = .next (s.withPart
            { p with
              link := sent
              config := { p.config with enables := marks }
              events := { p.events with alert := decide (p.events.flags &&& marks ≠ 0#8) } }))
      ∧ (p.link.after = some .restart →
        exec (.replyEnd inp) s = .next (s.withPart (Part.resetTo { p with link := sent } true inp)))

/-- RESTART_PART is refused BUSY while the store is SAVING; otherwise it is answered with an empty answer and the
restart waits for the end of that reply (R160). -/
def Rules.RestartPartRequested : Prop :=
  ∀ (tag : Byte) (s : State), s.part.link.receives = true →
    let p := s.part.arrived
    (p.store.state = .saving →
        exec (.restartPart tag) s = .next (s.withPart (p.refuses .restartPart tag .busy)))
      ∧ (p.store.state = .idle →
        exec (.restartPart tag) s
          = .next (s.withPart
            (Part.answers { p with link := { p.link with after := some .restart } } .restartPart tag [])))

/-- The 100 bytes of the ASK_STATION answer, each field at its offset of R188. The time left on the supervision timer
and on the settle timer is one of two values, which of them a free value says, and that is the model's choice (log
8). -/
def Rules.StationAnswerFields : Prop :=
  ∀ p : Part,
    let body := p.stationBody
    let holds (off : Nat) (field : List Byte) : Prop := (body.drop off).take field.length = field
    let mark (b : Bool) : Byte := if b then 1#8 else 0#8
    let ago (t : Word32) : Nat := (p.accounting.uptime - t).toNat
    let left (off : Nat) (timer : Option Timer) : Prop :=
      (timer = none → holds off (beBytes 2 65535))
        ∧ ∀ t : Timer, timer = some t →
          holds off (beBytes 2 (max 1 (min t.duration (t.duration - ago t.startedAt))))
            ∨ holds off (beBytes 2 (max 1 (min t.duration (t.duration - ago t.startedAt + 1))))
    let order (off : Nat) (us : List UnitNo) : Prop :=
      ∀ i : Nat, i < 6 →
        (∀ u : UnitNo, us[i]? = some u → holds (off + i) [codeByte u.number])
          ∧ (us[i]? = none → holds (off + i) [0#8])
    let supervision :=
      holds 0 [codeByte p.supervision.mode.code] ∧ left 1 p.supervision.timer
        ∧ holds 3 [codeByte p.supervision.mains.code] ∧ left 4 p.supervision.settle
        ∧ (∀ t : Word32, p.supervision.lostAt = some t → holds 6 (beBytes 4 (ago t)))
        ∧ (p.supervision.lostAt = none → holds 6 (beBytes 4 4294967295))
        ∧ holds 10 [codeByte p.supervision.restartSet.length] ∧ order 11 p.supervision.restartSet
    let arbiter :=
      holds 17 [codeByte p.arbiter.shed.code] ∧ holds 18 (beBytes 2 p.arbiter.committed)
        ∧ holds 20 (beBytes 2 p.arbiter.effective) ∧ holds 22 (beBytes 2 p.config.station.stationBudget)
        ∧ holds 24 (beBytes 2 p.config.station.curtailedBudget) ∧ holds 26 [mark p.arbiter.curtail]
        ∧ holds 27 [mark p.plan.budget.isSome]
        ∧ (∀ u : UnitNo, p.arbiter.slot = some u → holds 28 [codeByte u.number])
        ∧ (p.arbiter.slot = none → holds 28 [0#8])
        ∧ holds 29 [mark p.arbiter.stagger.isSome] ∧ holds 30 [mark p.arbiter.shedDelay.isSome]
        ∧ holds 31 [codeByte p.arbiter.queue.length]
        ∧ ∀ i : Nat, i < 6 →
          (∀ e : QueueEntry, p.arbiter.queue[i]? = some e →
              holds (32 + 6 * i)
                (codeByte e.unit.number :: codeByte e.origin.code :: beBytes 4 (ago e.queuedAt)))
            ∧ (p.arbiter.queue[i]? = none → holds (32 + 6 * i) [0#8, 0#8, 0#8, 0#8, 0#8, 0#8])
    let dispatch :=
      holds 68 [mark p.dispatcher.hold] ∧ holds 69 (beBytes 2 p.dispatcher.demand)
        ∧ holds 71 [codeByte p.config.station.rankingMode.code] ∧ order 72 p.dispatcher.startOrder
        ∧ holds 78 [codeByte p.estimator.state.code] ∧ holds 79 (beBytes 2 p.estimator.inflow)
        ∧ holds 81 [codeByte p.estimator.ring.length] ∧ holds 82 (beBytes 4 p.estimator.intervalVolume)
    let machines :=
      holds 86 [codeByte p.sluice.state.code] ∧ holds 87 [codeByte p.sluice.mode.code]
        ∧ holds 88 [mark p.sluice.waiting]
        ∧ (∀ c : CloseCause, p.sluice.cause = some c → holds 89 [codeByte c.code])
        ∧ (p.sluice.cause = none → holds 89 [0#8])
        ∧ holds 90 [mark p.sluice.atOpen] ∧ holds 91 [mark p.sluice.atClosed]
        ∧ holds 92 [codeByte p.cleaner.state.code]
        ∧ (∀ c : RakeCause, p.cleaner.cause = some c → holds 93 [codeByte c.code])
        ∧ (p.cleaner.cause = none → holds 93 [0#8])
        ∧ holds 94 [mark p.cleaner.interval.isSome] ∧ holds 95 [mark p.cleaner.pause.isSome]
        ∧ holds 96 [mark p.cleaner.done] ∧ holds 97 [codeByte p.store.state.code]
        ∧ holds 98 [codeByte p.store.lastResult.code]
        ∧ holds 99
          [codeByte ((if p.link.flags.check then 1 else 0) + (if p.link.flags.gap then 2 else 0)
            + (if p.link.flags.oversize then 4 else 0) + if p.link.flags.overrun then 8 else 0)]
    body.length = 100 ∧ supervision ∧ arbiter ∧ dispatch ∧ machines

/-- The 40 bytes of the ASK_GAUGES answer for the snapshot in force, each field at its offset of R186. -/
def Rules.GaugesAnswerFields : Prop :=
  ∀ (p : Part) (snap : Snapshot), p.gauge.snapshot = some snap →
    let body := p.gaugesBody
    let holds (off : Nat) (field : List Byte) : Prop := (body.drop off).take field.length = field
    let mark (b : Bool) : Byte := if b then 1#8 else 0#8
    let level (off : Nat) (l : Option Int) : Prop :=
      (∀ z : Int, l = some z → holds off (beInt 2 z)) ∧ (l = none → holds off (beInt 2 (-32768)))
    let channel (off : Nat) (n : ChannelName) : Prop :=
      let c := p.gauge.channels.get n
      holds off [mark (p.config.gauges.get n).fitted, codeByte c.state.code]
        ∧ (∀ r : InvalidReason, c.state = .invalid r →
          holds (off + 2) [match r with | .wireBreak => 1#8 | .overrange => 2#8])
        ∧ ((∀ r : InvalidReason, c.state ≠ .invalid r) → holds (off + 2) [0#8])
        ∧ level (off + 3) (p.channelLevel n)
    body.length = 40 ∧ holds 0 (beBytes 4 snap.time.toNat) ∧ level 4 snap.inner
      ∧ holds 6 [codeByte snap.innerQuality.code] ∧ level 7 snap.outer
      ∧ holds 9 [codeByte snap.outerQuality.code] ∧ level 10 snap.screen
      ∧ (∀ z : Int, snap.rackLoss = some z → holds 12 (beInt 4 z))
      ∧ (snap.rackLoss = none → holds 12 (beInt 4 (-2147483648)))
      ∧ holds 16 [codeByte snap.rack.code] ∧ holds 17 [mark snap.floatHigh]
      ∧ holds 18 [mark snap.floatLow] ∧ holds 19 [codeByte snap.mode.code]
      ∧ channel 20 .ga ∧ channel 25 .gb ∧ channel 30 .go ∧ channel 35 .gs

/-- ASK_STATION is answered and clears the link error flags once its answer is formed (R183, R188), two free values used
for its timers (log 8). ASK_GAUGES takes its immediate round first and is answered from it (R15, R186). -/
def Rules.StationAndGaugesServed : Prop :=
  ∀ (tag : Byte) (cur : Currents) (s : State), s.part.link.receives = true →
    let p := s.part.arrived
    let r := Part.round { p with roundDue := false, gauge.mode := .fast } cur
    exec (.askStation tag) s
        = .next (s.withPart
          (Part.answers
            { p with
              link := { p.link with flags := ⟨false, false, false, false⟩ }
              freeCount := p.freeCount + 2 } .askStation tag p.stationBody))
      ∧ exec (.askGauges tag cur) s = .next (s.withPart (r.answers .askGauges tag r.gaugesBody))
      ∧ r.gauge.snapshot.isSome = true

/-! ### Event queue (chapter 12) -/

/-- An append (R190): the record joins at the tail with the station clock as its time; at 48 records the oldest goes and
the record then oldest is marked; the class flag is set (R193) and ALERT set afresh (R195). A value outside its range
is shown as a free value, which is the model's choice (log 10). -/
def Rules.RecordAppended : Prop :=
  ∀ (p : Part) (code : EventCode) (unit : Option UnitNo) (value : Option Int),
    let flags := p.events.flags ||| BitVec.ofNat 8 (2 ^ code.cls.code)
    let held (r : Record) : List Record :=
      if p.events.records.length < 48 then p.events.records ++ [r]
      else
        match p.events.records.drop 1 with
        | [] => [r]
        | x :: xs => { x with gap := true } :: xs ++ [r]
    let appended (shown : Option Int) (used : Nat) : Part :=
      { p with
        events :=
          { records := held ⟨p.accounting.clock, code, unit, false, shown⟩
            flags := flags
            alert := decide (flags &&& p.config.enables ≠ 0#8) }
        freeCount := p.freeCount + used }
    ((∀ v : Int, value = some v → -2147483648 ≤ v ∧ v ≤ 2147483647) →
        p.record code unit value = appended value 0)
      ∧ ∀ v : Int, value = some v → (v < -2147483648 ∨ 2147483647 < v) →
        ∃ shown : Int, p.record code unit value = appended (some shown) 1

/-- TAKE_EVENTS returns and removes the oldest records, 1 to 19 of them (R192); CLEAR_ALERTS clears the named flags
(R193); SET_ALERTS writes enables that wait for the end of the reply (R194). -/
def Rules.EventRequests : Prop :=
  ∀ (tag b : Byte) (s : State), s.part.link.receives = true →
    let p := s.part.arrived
    let n := max 1 (min 19 b.toNat)
    let held := p.events.records.drop n
    let flags := p.events.flags &&& ~~~b
    exec (.takeEvents tag b) s
        = .next (s.withPart
          (Part.answers { p with events := { p.events with records := held } } .takeEvents tag
            ([BitVec.ofNat 8 (min n p.events.records.length), BitVec.ofNat 8 held.length]
              ++ (p.events.records.take n).flatMap encodeRecord)))
      ∧ exec (.clearAlerts tag b) s
        = .next (s.withPart
          (Part.answers
            { p with
              events :=
                { p.events with
                  flags := flags
                  alert := decide (flags &&& p.config.enables ≠ 0#8) } }
            .clearAlerts tag [flags, p.config.enables]))
      ∧ (b = p.config.enables →
        exec (.setAlerts tag b) s
          = .next (s.withPart (p.answers .setAlerts tag [b, p.events.flags])))
      ∧ (b ≠ p.config.enables →
        exec (.setAlerts tag b) s
          = .next (s.withPart
            (Part.answers { p with link := { p.link with after := some (.newEnables b) } } .setAlerts tag
              [b, p.events.flags])))

/-! ### Configuration store (chapter 13) -/

/-- The tests of WRITE_CONFIG in their order, the selector and then the length (R198), in all four rows; ASK_CONFIG
reads the record named back in its layout. -/
def Rules.ConfigSelectorsAndLengths : Prop :=
  ∀ (tag inst : Byte) (record : List Byte) (s : State), s.part.link.receives = true →
    let p := s.part.arrived
    let refused (r : Reason) : Result := .next (s.withPart (p.refuses .writeConfig tag r))
    let refusedLate (r : Reason) : Result :=
      .next (s.withPart (p.refuses .writeConfig tag r).takeUnseenRound)
    let read (type : Byte) (bytes : List Byte) : Result :=
      .next (s.withPart (p.answers .askConfig tag (type :: inst :: bytes)))
    (inst ≠ 0#8 → exec (.writeConfigLink tag inst record) s = refused .range
        ∧ exec (.writeConfigStation tag inst record) s = refusedLate .range)
      ∧ (inst.toNat = 0 ∨ 4 < inst.toNat →
        exec (.writeConfigGauge tag inst record) s = refusedLate .range)
      ∧ (inst.toNat = 0 ∨ 6 < inst.toNat → exec (.writeConfigUnit tag inst record) s = refused .range)
      ∧ (inst = 0#8 → record.length ≠ 2 → exec (.writeConfigLink tag inst record) s = refused .length)
      ∧ (inst = 0#8 → record.length ≠ 61 →
        exec (.writeConfigStation tag inst record) s = refusedLate .length)
      ∧ (1 ≤ inst.toNat → inst.toNat ≤ 4 → record.length ≠ 5 →
        exec (.writeConfigGauge tag inst record) s = refusedLate .length)
      ∧ (1 ≤ inst.toNat → inst.toNat ≤ 6 → record.length ≠ 54 →
        exec (.writeConfigUnit tag inst record) s = refused .length)
      ∧ (inst = 0#8 → exec (.askConfig tag 0#8 inst) s = read 0#8 (encodeLink p.config.link)
          ∧ exec (.askConfig tag 1#8 inst) s = read 1#8 (encodeStation p.config.station))
      ∧ (∀ n : ChannelName, channelOf inst.toNat = some n →
        exec (.askConfig tag 2#8 inst) s = read 2#8 (encodeGauge (p.config.gauges.get n)))
      ∧ (∀ u : UnitNo, UnitNo.ofNumber inst.toNat = some u →
        exec (.askConfig tag 3#8 inst) s = read 3#8 (encodeUnit (p.config.units.get u)))
      ∧ ∀ type : Byte,
        ((type.toNat ≤ 1 ∧ inst ≠ 0#8) ∨ (type.toNat = 2 ∧ (inst.toNat = 0 ∨ 4 < inst.toNat))
            ∨ (type.toNat = 3 ∧ (inst.toNat = 0 ∨ 6 < inst.toNat)) ∨ 3 < type.toNat) →
          exec (.askConfig tag type inst) s = .next (s.withPart (p.refuses .askConfig tag .range))

/-- A link record: a code outside its table refused, settings that differ from those in force taken up at the end of
the reply (R173). -/
def Rules.LinkRecordWritten : Prop :=
  ∀ (tag baud gap : Byte) (s : State), s.part.link.receives = true →
    let p := s.part.arrived
    (4 < baud.toNat ∨ 3 < gap.toNat →
        exec (.writeConfigLink tag 0#8 [baud, gap]) s
          = .next (s.withPart (p.refuses .writeConfig tag .range)))
      ∧ ∀ l : LinkSettings, l.baud.named = true → l.gapLimit.named = true →
        l.baud.code = baud.toNat → l.gapLimit.code = gap.toNat →
        let q : Part := { p with config := { p.config with link := l } }
        (l = p.link.settings →
            exec (.writeConfigLink tag 0#8 [baud, gap]) s
              = .next (s.withPart (q.answers .writeConfig tag [0#8, 0#8, baud, gap])))
          ∧ (l ≠ p.link.settings →
            exec (.writeConfigLink tag 0#8 [baud, gap]) s
              = .next (s.withPart
                (Part.answers { q with link := { q.link with after := some (.newSettings l) } }
                  .writeConfig tag [0#8, 0#8, baud, gap])))

/-- A station record: every number clamped into its range, or the whole record refused RANGE (R4, R94); a taken one is
answered as applied, sets the configured mark, and moves what its changed settings move (R69, R94, R111, R131, R151). -/
def Rules.StationRecordWritten : Prop :=
  ∀ (tag : Byte) (r : StationRecord) (record : List Byte) (s : State), s.part.link.receives = true →
    record.length = 61 → decodeStation record = r →
    let p := s.part.arrived
    let old := p.config.station
    let upTo (lo hi n : Nat) : Nat := max lo (min hi n)
    let c : StationRecord :=
      { stopLevel := r.stopLevel
        highLevel := r.highLevel
        area := upTo 100 500000 r.area
        drawdown := upTo 60 7200 r.drawdown
        interval := upTo 30 300 r.interval
        window := upTo 2 15 r.window
        evalInterval := upTo 10 120 r.evalInterval
        hysteresis := min 5000 r.hysteresis
        rankingMode := r.rankingMode
        fixedOrder := r.fixedOrder
        stagger := upTo 5 120 r.stagger
        stationBudget := min 5000 r.stationBudget
        curtailedBudget := min 5000 r.curtailedBudget
        shedDelay := upTo 2 60 r.shedDelay
        settleTime := upTo 5 300 r.settleTime
        supervisionTimeout := if r.supervisionTimeout = 0 then 0 else upTo 30 3600 r.supervisionTimeout
        holdLimit := upTo 10 900 r.holdLimit
        agreementLimit := upTo 10 500 r.agreementLimit
        fallbackHead := min 30000 r.fallbackHead
        openMargin := upTo 50 2000 r.openMargin
        closeMargin := upTo 20 (upTo 50 2000 r.openMargin - 10) r.closeMargin
        travelTimeout := upTo 10 600 r.travelTimeout
        cleanThreshold := upTo 10 2000 r.cleanThreshold
        restrictThreshold := upTo 10 2000 r.restrictThreshold
        tripThreshold := upTo 10 2000 r.tripThreshold
        rakeTimeout := upTo 10 900 r.rakeTimeout
        rakeInterval := if r.rakeInterval = 0 then 0 else upTo 600 86400 r.rakeInterval
        fallbackTarget := max (-20000) (min 20000 r.fallbackTarget)
        fallbackBand := upTo 20 2000 r.fallbackBand }
    let valid := -20000 ≤ r.stopLevel ∧ r.stopLevel ≤ 20000 ∧ -20000 ≤ r.highLevel ∧ r.highLevel ≤ 20000
      ∧ 200 ≤ r.highLevel - r.stopLevel ∧ (r.rankingMode = .rotate ∨ r.rankingMode = .fixed)
      ∧ r.fixedOrder.Perm [1#8, 2#8, 3#8, 4#8, 5#8, 6#8]
      ∧ c.cleanThreshold < c.restrictThreshold ∧ c.restrictThreshold < c.tripThreshold
    let now := p.accounting.uptime
    let unlessZero (n : Nat) : Option Timer := if n = 0 then none else some ⟨n, now⟩
    let q : Part :=
      { p with
        config := { p.config with station := c }
        store := { p.store with configured := true }
        estimator :=
          if c.interval = old.interval ∧ c.window = old.window then p.estimator
          else ⟨0, decide (p.sluice.state = .closed), some ⟨c.interval, now⟩, [], .warming, 0⟩
        dispatcher :=
          if c.evalInterval = old.evalInterval then p.dispatcher
          else { p.dispatcher with timer := some ⟨c.evalInterval, now⟩ }
        supervision :=
          if c.supervisionTimeout = old.supervisionTimeout then p.supervision
          else { p.supervision with timer := unlessZero c.supervisionTimeout }
        cleaner :=
          if c.rakeInterval = old.rakeInterval ∨ p.cleaner.state ≠ .idle then p.cleaner
          else { p.cleaner with interval := unlessZero c.rakeInterval } }
    (¬valid →
        exec (.writeConfigStation tag 0#8 record) s
          = .next (s.withPart (p.refuses .writeConfig tag .range).takeUnseenRound))
      ∧ (valid →
        exec (.writeConfigStation tag 0#8 record) s
          = .next (s.withPart
            (q.reformBudget.answers .writeConfig tag
              (1#8 :: 0#8 :: encodeStation c)).takeUnseenRound))

/-- A gauge record (R3): GA and GO always fitted; zero and span clamped; the buffer emptied and the channel fresh; GS
marked not fitted sets the rack CLEAR at once. -/
def Rules.GaugeRecordWritten : Prop :=
  ∀ (tag inst : Byte) (n : ChannelName) (fitted : Bool) (z : Word16) (span : Word16) (s : State),
    s.part.link.receives = true → channelOf inst.toNat = some n →
    let p := s.part.arrived
    let record := markByte fitted :: (beBytes 2 z.toNat ++ beBytes 2 span.toNat)
    let r : GaugeRecord :=
      ⟨fitted, max (-20000) (min 20000 z.toInt), max 100 (min 40000 span.toNat)⟩
    let q : Part :=
      { p with
        config := { p.config with gauges := p.config.gauges.set n r }
        gauge :=
          { p.gauge with
            channels := p.gauge.channels.set n ⟨[], if fitted then .init else .notFitted⟩ } }
    let cleared : Part :=
      Part.grantCheck
        (Part.record { q with gauge := { q.gauge with rack := .clear } } .rackClear none none)
    let taken (t : Part) : Prop :=
      exec (.writeConfigGauge tag inst record) s
        = .next (s.withPart (t.answers .writeConfig tag (2#8 :: inst :: encodeGauge r)).takeUnseenRound)
    ((n = .ga ∨ n = .go) → fitted = false →
        exec (.writeConfigGauge tag inst record) s
          = .next (s.withPart (p.refuses .writeConfig tag .range).takeUnseenRound))
      ∧ ((fitted = true ∨ n = .gb ∨ (n = .gs ∧ p.gauge.rack = .clear)) →
          ¬((n = .ga ∨ n = .go) ∧ fitted = false) → taken q)
      ∧ (n = .gs → fitted = false → p.gauge.rack ≠ .clear → taken cleared)

/-- A unit record (R29): STATE unless the unit is OFFLINE; then the outlet and the curve of R17, which is never
clamped (RANGE); the other numbers clamped; the unit's derived values formed afresh at once, as at the snapshot in
force or, without one, as at a reset, with the fallback head in use, whatever the station record holds by then (R18). -/
def Rules.UnitRecordWritten : Prop :=
  ∀ (tag inst : Byte) (u : UnitNo) (record : List Byte) (s : State),
    s.part.link.receives = true → UnitNo.ofNumber inst.toNat = some u → record.length = 54 →
    let p := s.part.arrived
    let upTo (lo hi n : Nat) : Nat := max lo (min hi n)
    let refused (r : Reason) : Prop :=
      exec (.writeConfigUnit tag inst record) s = .next (s.withPart (p.refuses .writeConfig tag r))
    let valid (curve : List CurvePoint) : Prop :=
      2 ≤ curve.length ∧ curve.length ≤ 6 ∧ curve.Pairwise (fun a b => a.head < b.head)
        ∧ ∀ a ∈ curve, a.head ≤ 30000 ∧ a.flow ≤ 20000 ∧ a.power ≤ 2000
    ((p.unit u).state ≠ .offline → refused .state)
      ∧ ((p.unit u).state = .offline → ∀ r : UnitRecord, decodeUnit record = r →
          let outlet := r.outlet = .siphon ∨ r.outlet = .flap
          (¬(outlet ∧ valid r.curve) → refused .range)
            ∧ (outlet → valid r.curve →
              let c : UnitRecord :=
                { enabled := r.enabled
                  outlet := r.outlet
                  loss := min 3000 r.loss
                  curve := r.curve
                  minRun := min 3600 r.minRun
                  minRest := min 3600 r.minRest
                  maxStarts := upTo 1 12 r.maxStarts
                  primeTimeout := upTo 10 600 r.primeTimeout
                  startTimeout := upTo 2 60 r.startTimeout
                  stopTimeout := upTo 2 120 r.stopTimeout
                  runLossDelay := upTo 1 10 r.runLossDelay
                  headLimitDwell := min 300 r.headLimitDwell
                  startRetries := min 2 r.startRetries }
              let taken (d : Derived) : Prop :=
                exec (.writeConfigUnit tag inst record) s
                  = .next (s.withPart
                    (Part.answers
                      { p with
                        config := { p.config with units := p.config.units.set u c }
                        curves := p.curves.set u d }
                      .writeConfig tag (3#8 :: inst :: encodeUnit c)))
              (∀ snap : Snapshot, p.gauge.snapshot = some snap →
                  taken (deriveFrom p.fallbackInUse c snap (p.curves.get u)))
                ∧ (p.gauge.snapshot = none →
                  taken (deriveAt c (min 30000 (p.fallbackInUse + c.loss)) .fallback))))

/-- SAVE_CONFIG: BUSY, NOT_CONFIGURED, or the save begun (R199). That the erase is taken with the beginning is the
model's choice (log 14). -/
def Rules.SaveBegins : Prop :=
  ∀ (tag : Byte) (s : State), s.part.link.receives = true →
    let p := s.part.arrived
    (p.store.state = .saving →
        exec (.saveConfig tag) s = .next (s.withPart (p.refuses .saveConfig tag .busy)))
      ∧ (p.store.state = .idle → p.store.configured = false →
        exec (.saveConfig tag) s = .next (s.withPart (p.refuses .saveConfig tag .notConfigured)))
      ∧ (p.store.state = .idle → p.store.configured = true →
        exec (.saveConfig tag) s
          = .next (s.withPart
            (Part.answers
              { p with
                store :=
                  { p.store with
                    image := []
                    state := .saving
                    saveCopy := some p.config
                    attempts := 1 } } .saveConfig tag [1#8, codeByte p.store.lastResult.code])))

/-- The completion of an attempt (R200): saved, tried again with a fresh erase, or failed after the third; what the
third failed attempt leaves in the image is a free value (log 11). -/
def Rules.SaveAttemptCompletes : Prop :=
  ∀ s : State, s.part.store.state = .saving →
    let p := s.part
    let ended (image : List Byte) (r : SaveResult) : Store :=
      { p.store with image := image, state := .idle, saveCopy := none, lastResult := r }
    (∀ copy : WorkingCopy, p.store.saveCopy = some copy →
        exec (.saveAttemptCompletion true) s
          = .next (s.withPart
            (Part.record { p with store := ended (encodeImage copy) .ok } .storeSaved none
              (some (p.store.attempts : Int)))))
      ∧ (p.store.attempts < 3 →
        exec (.saveAttemptCompletion false) s
          = .next (s.withPart
            { p with store := { p.store with attempts := p.store.attempts + 1, image := [] } }))
      ∧ (3 ≤ p.store.attempts →
        ∃ left : List Byte,
          exec (.saveAttemptCompletion false) s
            = .next (s.withPart
              (Part.record
                { p with
                  store := ended left .failed
                  freeCount := p.freeCount + 1 } .storeFailed none (some 3))))

/-- Both resets, block by block, up to the first round that they take (R16): what is kept across RESTART_PART and what
every block is set to (R28, R58, R59, R71, R96, R118, R128, R133, R146, R159, R170, R174, R196, R197, R200), and the
reset records in their order (R161). A stop timer of 0 s expires at once (R30), which only a loaded image can bring. Where
in the reset it does is the model's choice (log 28), as is that waiting for mains is no in CLOSED and OPEN (log 43). -/
def Rules.ResetSetsEveryBlock : Prop :=
  ∀ (c : Instr) (s : State) (restart : Bool) (inp : FieldInputs), takesReset c s restart inp →
    let p := s.part
    let l := inp.lines
    let config := (loadImage p.store.image).getD WorkingCopy.default
    let st := config.station
    let configured := (loadImage p.store.image).isSome
    let now := if restart then p.accounting.uptime else 0#32
    let clock := if restart then p.accounting.clock else 0#32
    let timer (n : Nat) : Option Timer := some ⟨n, now⟩
    let unlessZero (n : Nat) : Option Timer := if n = 0 then none else timer n
    let totals := if restart then p.accounting.totals else ⟨Six.const 0, Six.const 0, 0, Six.const 0⟩
    let trips (u : UnitNo) : Bool := (config.units.get u).enabled && (l.units.get u).trip
    let stopFails (u : UnitNo) : Bool := (l.units.get u).run && decide ((config.units.get u).stopTimeout = 0)
    let record (code : EventCode) (u : Option UnitNo) (v : Option Int) : Record := ⟨clock, code, u, false, v⟩
    let records : List Record :=
      [record (if restart then .partRestart else .powerOn) none none]
        ++ (if configured then [] else [record .storeInvalid none none])
        ++ ([.u1, .u2, .u3, .u4, .u5, .u6] : List UnitNo).flatMap (fun u =>
            if trips u then [record .motorTrip (some u) (some 1)]
            else if stopFails u then [record .stopFail (some u) (some 8)] else [])
        ++ if l.floatLow then [record .stopLevel none none] else []
    let unit (u : UnitNo) : PumpUnit :=
      let r := config.units.get u
      let fresh : PumpUnit :=
        { state := if r.enabled then .idle else .offline
          authority := .auto
          fault := none
          retriesLeft := r.startRetries
          retryPending := false
          stopOrigin := none
          minRunElapsed := false
          lastGrant := none
          history := if restart then (p.unit u).history else []
          limitReported := false
          reserved := 0
          primeTimer := none
          startTimer := none
          stopTimer := none
          minRunTimer := none
          restTimer := none
          runLossTimer := none
          dwellTimer := none
          startOut := false
          primeOut := false
          airvalveOut := false
          run := (l.units.get u).run
          trip := (l.units.get u).trip
          primed := (l.units.get u).primed }
      if trips u then { fresh with state := .tripped, fault := some .motorTrip }
      else if stopFails u then { fresh with state := .tripped, fault := some .stopFail }
      else if (l.units.get u).run then
        { fresh with state := .stopping, stopOrigin := some .reset, stopTimer := timer r.stopTimeout }
      else fresh
    let channel (g : GaugeRecord) : Channel := ⟨[], if g.fitted then .init else .notFitted⟩
    let gate : SluiceState :=
      if l.sluiceAtClosed && !l.sluiceAtOpen then .closed
      else if l.sluiceAtOpen && !l.sluiceAtClosed then .opened
      else .closing
    let flags := records.foldl (fun f r => f ||| BitVec.ofNat 8 (2 ^ r.code.cls.code))
      (if restart then p.events.flags else 0#8)
    let band := clampBand st st.fallbackBand
    exec c s
      = .next (s.withPart
        (Part.round
          { gauge :=
              { channels :=
                  ⟨channel config.gauges.ga, channel config.gauges.gb, channel config.gauges.go,
                    channel config.gauges.gs⟩
                heldInner := none
                heldOuter := none
                innerQuality := .init
                outerQuality := .init
                rack := .clear
                floatHigh := l.floatHigh
                floatLow := l.floatLow
                effHigh := l.floatHigh && !l.floatLow
                effLow := l.floatLow
                mode := .fast
                roundTimer := none
                snapshot := none }
            curves := Six.ofFn fun u =>
              deriveAt (config.units.get u)
                (min 30000 (st.fallbackHead + (config.units.get u).loss)) .fallback
            fallbackInUse := st.fallbackHead
            units := Six.ofFn unit
            estimator := ⟨0, gate == .closed, timer st.interval, [], .warming, 0⟩
            dispatcher := ⟨timer st.evalInterval, l.floatLow, startOrderOf st totals.runSeconds, 0⟩
            arbiter :=
              { queue := []
                slot := none
                stagger := none
                committed := 0
                effective := if l.curtail then min st.stationBudget st.curtailedBudget else st.stationBudget
                shed := .normal
                shedDelay := none
                curtail := l.curtail }
            sluice :=
              { state := gate
                mode := .auto
                travel := none
                waiting := gate == .closing
                cause := if gate = .closing then some .reset else none
                driveOpen := false
                driveClose := false
                atOpen := l.sluiceAtOpen
                atClosed := l.sluiceAtClosed }
            cleaner := ⟨.idle, none, none, unlessZero st.rakeInterval, none, false, l.rakeDone⟩
            plan := ⟨clampTarget st band st.fallbackTarget, band, none, false, [], .empty⟩
            supervision :=
              { mode := .supervised
                timer := unlessZero st.supervisionTimeout
                autonomousSince := none
                mains := if l.mainsOk then .settling else .lost
                settle := if l.mainsOk then timer st.settleTime else none
                lostAt := none
                restartSet := []
                mainsOk := l.mainsOk }
            accounting :=
              if restart then p.accounting
              else ⟨0#32, 0#32, some ⟨1, 0#32⟩, totals, ⟨0#32, 0#32, totals⟩⟩
            link :=
              { rx := .hunting
                discarding := false
                buffer := []
                gap := none
                flags := ⟨false, false, false, false⟩
                settings := config.link
                reply := []
                after := none
                direction := false }
            events :=
              { records := records.foldl appendRecord (if restart then p.events.records else [])
                flags := flags
                alert := decide (flags &&& config.enables ≠ 0#8) }
            store := ⟨p.store.image, .idle, none, 0, .none, configured⟩
            config := config
            roundDue := false
            freeCount := p.freeCount } inp.currents))

/-- The least values that the defaults take where R197 names no exception, and the power-on reset with an image that
holds no valid check is the state after reset. The released lines, the missing currents and the empty image of that
reset are the model's choices (log 1, 2, 3). -/
def Rules.StateAfterReset : Prop :=
  (∀ p : Part, p.store.image = [] → p.freeCount = 0 →
      exec (.powerOnReset
          ⟨⟨Six.const ⟨false, false, false⟩, false, false, false, false, false, false, false⟩,
            ⟨0, 0, 0, 0⟩⟩) ⟨p, []⟩
        = .next State.reset)
    ∧ State.reset.part.config.station.asWritten
    ∧ (∀ u : UnitNo, (State.reset.part.unit u).state = .offline ∧ State.reset.part.flow u = 0
        ∧ State.reset.part.power u = 0)
    ∧ State.reset.part.store.configured = false ∧ State.reset.pending = []

/-- What a save programs reads back: the load of the image of any working copy whose records are as taken writes leave
them is that working copy, with its check of R172; the image takes 410 bytes. A load takes an image exactly where its
check agrees, whatever its codes (R197). The order of the records in the image is the model's choice (log 12). -/
def Obligations.ImageReadsBack : Prop :=
  (∀ c : WorkingCopy, c.asWritten → loadImage (encodeImage c) = some c ∧ (encodeImage c).length = 410)
    ∧ ∀ image : List Byte,
      let check := crc16 (image.take 408)
      (loadImage image).isSome = true ↔
        image.length = 410
          ∧ image.drop 408 = [BitVec.ofNat 8 (check.toNat / 256), BitVec.ofNat 8 check.toNat]

/-- Numbers on the link (R185): most significant byte first, in two's complement where signed. -/
def Rules.NumbersOnTheLink : Prop :=
  (∀ n : Nat, beBytes 2 n = [BitVec.ofNat 8 (n / 256), BitVec.ofNat 8 n])
    ∧ (∀ n : Nat, beBytes 4 n
      = [BitVec.ofNat 8 (n / 16777216), BitVec.ofNat 8 (n / 65536), BitVec.ofNat 8 (n / 256),
          BitVec.ofNat 8 n])
    ∧ (∀ z : Int, -32768 ≤ z → z ≤ 32767 →
      beInt 2 z = beBytes 2 (if z < 0 then z + 65536 else z).toNat)
    ∧ ∀ z : Int, -2147483648 ≤ z → z ≤ 2147483647 →
      beInt 4 z = beBytes 4 (if z < 0 then z + 4294967296 else z).toNat

/-- An event record in 12 bytes, each field at its offset (R189), with the codes of the classes. -/
def Rules.EventRecordLayout : Prop :=
  (EventClass.unit.code = 0 ∧ EventClass.level.code = 1 ∧ EventClass.power.code = 2
      ∧ EventClass.sluice.code = 3 ∧ EventClass.screen.code = 4 ∧ EventClass.plan.code = 5
      ∧ EventClass.mode.code = 6 ∧ EventClass.store.code = 7)
    ∧ ∀ r : Record,
      let holds (off : Nat) (field : List Byte) : Prop :=
        ((encodeRecord r).drop off).take field.length = field
      (encodeRecord r).length = 12
        ∧ holds 0 (beBytes 4 r.time.toNat)
        ∧ holds 4 [BitVec.ofNat 8 r.code.cls.code]
        ∧ holds 5 [BitVec.ofNat 8 r.code.number]
        ∧ (∀ u : UnitNo, r.unit = some u → holds 6 [BitVec.ofNat 8 u.number])
        ∧ (r.unit = none → holds 6 [0#8])
        ∧ holds 7 [BitVec.ofNat 8 ((if r.gap then 1 else 0) + if r.value.isSome then 2 else 0)]
        ∧ (∀ v : Int, r.value = some v → holds 8 (beInt 4 v))
        ∧ (r.value = none → holds 8 [0#8, 0#8, 0#8, 0#8])

/-- The layouts of R198 and R189 read back what they write: link, station, gauge and unit records, plan entries. -/
def Rules.RecordsReadBack : Prop :=
  (∀ l : LinkSettings, l.named = true → decodeLink (encodeLink l) = l ∧ (encodeLink l).length = 2)
    ∧ (∀ r : StationRecord, r.asWritten →
      decodeStation (encodeStation r) = r ∧ (encodeStation r).length = 61)
    ∧ (∀ r : GaugeRecord, r.asWritten → decodeGauge (encodeGauge r) = r ∧ (encodeGauge r).length = 5)
    ∧ (∀ r : UnitRecord, r.asWritten → decodeUnit (encodeUnit r) = r ∧ (encodeUnit r).length = 54)
    ∧ ∀ e : PlanEntry, -32768 ≤ e.target → e.target ≤ 32767 →
      (∀ b : Nat, e.band = some b → b ≤ 65535) → (∀ b : Nat, e.budget = some b → b ≤ 65535) →
      planEntryOf (decodePlanWords (encodePlanEntry e)) = e ∧ (encodePlanEntry e).length = 12

/-! ### The statements that join rules of one subject -/

/-- The inner and the outer quality and level of a round, and the rack loss. -/
def Obligations.QualitiesByTable : Prop :=
  Rules.InnerQualityByTable ∧ Rules.OuterQualityAndRackLoss

/-- The rack state by its table, and the records of changed qualities and of a changed rack. -/
def Obligations.RackAndLevelRecords : Prop :=
  Rules.RackMovesByTable ∧ Rules.QualityChangesRecorded

/-- The readings of a curve at every head, and their bounds. -/
def Obligations.CurveEstimates : Prop :=
  Rules.CurveReadings ∧ Rules.EstimatesStayWithinCurve

/-- The heads and readings of the units after a round and from a given snapshot, and the fallback head in use. -/
def Obligations.HeadsFormedAtSnapshot : Prop :=
  Rules.HeadsAfterRound ∧ Rules.HeadsByTable ∧ Rules.FallbackHeadFirstUsed

/-- The start sequence: changes of state, the grant, its timers of 0 s, PRIMED, RUN in STARTING. -/
def Obligations.StartSequence : Prop :=
  Rules.StateChangeSetsLines ∧ Rules.GrantTakenByUnit ∧ Rules.StartTimersOfZero
    ∧ Rules.PrimedLineEndsPriming ∧ Rules.RunEndsStart

/-- The line events of RUN in every state but STARTING. -/
def Obligations.RunLineOutsideStarting : Prop :=
  Rules.RunAssertedOutsideStarting ∧ Rules.RunReleased

/-- The stop sequence: orders taken or ignored, and the end of a stop. -/
def Obligations.StopSequence : Prop :=
  Rules.StopOrdersTaken ∧ Rules.StopEndsByTable

/-- Failed starts and the rests after them. -/
def Obligations.StartFailuresAndRests : Prop :=
  Rules.StartFailures ∧ Rules.RestEnds

/-- The expiries of a unit's timers, and the dwell at a snapshot. -/
def Obligations.UnitTimersAndDwell : Prop :=
  Rules.UnitTimerExpiries ∧ Rules.DwellAtSnapshot

/-- The unit orders HAND_START, HAND_STOP, AUTO and CLEAR. -/
def Obligations.HandAutoClearOrders : Prop :=
  Rules.HandOrders ∧ Rules.AutoAndClearOrders

/-- The ranking, and the walks along it that enqueue. -/
def Obligations.RankingAndWalks : Prop :=
  Rules.RankingOrders ∧ Rules.EnqueueWalks

/-- Stages 6 and 7 of an evaluation. -/
def Obligations.DemandAndDrawdownStages : Prop :=
  Rules.DemandStageActs ∧ Rules.DrawdownWithdrawsAndStops

/-- The protections of the dispatch controller at their own events, with the stop orders and the emptied queue they
bring. -/
def Obligations.ProtectionsAndFloatHigh : Prop :=
  Rules.StopLevelAndHold ∧ Rules.StopOrdersAndEmptiedQueue ∧ Rules.FloatHighCallsStation

/-- Entries joining and leaving the start queue, and the start slot with its stagger. -/
def Obligations.EnqueueAndSlot : Prop :=
  Rules.EnqueueTaken ∧ Rules.EntryRemoved ∧ Rules.SlotAndStagger

/-- Committed load, and the re-estimation of the reserved loads. -/
def Obligations.LoadsAndReestimation : Prop :=
  Rules.CommittedLoadFollows ∧ Rules.ReestimationReachesArbiter

/-- The shed test, its target, the shed, and the shed delay. -/
def Obligations.Shedding : Prop :=
  Rules.ShedByRules ∧ Rules.ShedDelayExpiry

/-- The effective budget, CURTAIL, and SET_BUDGET. -/
def Obligations.EffectiveBudget : Prop :=
  Rules.BudgetAndCurtail ∧ Rules.SetBudget

/-- The decisions of the sluice controller, and the gate closed. -/
def Obligations.GateDecisions : Prop :=
  Rules.GateClosed ∧ Rules.SluiceDecidesAtSnapshot

/-- The limit lines of the gate, its travel timeout, and the mains at the gate. -/
def Obligations.GateLinesAndTravel : Prop :=
  Rules.LimitLinesOfGate ∧ Rules.TravelTimeoutAndMains

/-- The rack cleaner: starts and ends of a rake, its timers and orders. -/
def Obligations.RackCleaner : Prop :=
  Rules.RakeStarts ∧ Rules.RakeEnds

/-- The targets in force: SET_TARGET and the activation of the plan. -/
def Obligations.TargetsApplied : Prop :=
  Rules.SetTargetClamps ∧ Rules.ActivationAppliesNewest

/-- The requests of the plan. -/
def Obligations.PlanRequests : Prop :=
  Rules.PlanAddTests ∧ Rules.PlanClearAndAskPlan

/-- Supervision by accepted telegrams, its expiry, and SET_MODE. -/
def Obligations.SupervisionAndModes : Prop :=
  Rules.AcceptedTelegramReachesSupervision ∧ Rules.AutonomyEntered ∧ Rules.SetMode

/-- The mains loss and the restart set it rebuilds. -/
def Obligations.MainsLoss : Prop :=
  Rules.MainsLossSteps ∧ Rules.RestartSetRebuilt

/-- Telegrams that are damaged, refused by kind or length, or lost. -/
def Obligations.DamagedAndRefusedTelegrams : Prop :=
  Rules.LinkFaults ∧ Rules.KindAndLengthRefused ∧ Rules.TelegramLostWhileReplying

/-- The end of a reply, and RESTART_PART. -/
def Obligations.ReplyEndAndRestart : Prop :=
  Rules.ReplyEndActs ∧ Rules.RestartPartRequested

/-- ASK_STATION and ASK_GAUGES, and the fields of their answers. -/
def Obligations.StationAndGaugesAsked : Prop :=
  Rules.StationAndGaugesServed ∧ Rules.StationAnswerFields ∧ Rules.GaugesAnswerFields

/-- Records, flags and ALERT, and the requests of the event queue. -/
def Obligations.EventQueueRequests : Prop :=
  Rules.RecordAppended ∧ Rules.EventRequests

/-- WRITE_CONFIG of the four record types, and ASK_CONFIG. -/
def Obligations.ConfigurationWrites : Prop :=
  Rules.ConfigSelectorsAndLengths ∧ Rules.LinkRecordWritten ∧ Rules.StationRecordWritten
    ∧ Rules.GaugeRecordWritten ∧ Rules.UnitRecordWritten

/-- SAVE_CONFIG and the completion of its attempts. -/
def Obligations.SavesOfConfiguration : Prop :=
  Rules.SaveBegins ∧ Rules.SaveAttemptCompletes

/-- Both resets, and the state right after the first. -/
def Obligations.BothResets : Prop :=
  Rules.ResetSetsEveryBlock ∧ Rules.StateAfterReset

/-- The telegram and its check, numbers, the event record, and the record layouts read back. -/
def Obligations.LayoutsOnTheLink : Prop :=
  Rules.TelegramLayoutAndCheck ∧ Rules.NumbersOnTheLink ∧ Rules.EventRecordLayout ∧ Rules.RecordsReadBack
end

