-- ==== Sys2Proof/Laws/State.lean ====
section
/-! SUPPORT. The fields that each unconditional update leaves as they were, one lemma per field and update, and
the readings of a unit after an update of units. -/

namespace Sys2Proof

/-! ### Access by unit and channel -/

@[simp] theorem Six.get_set_self {α : Type} (x : Six α) (u : UnitNo) (a : α) : (x.set u a).get u = a := by
  cases u <;> rfl

theorem Six.get_set_ne {α : Type} (x : Six α) {u v : UnitNo} (a : α) (h : v ≠ u) :
    (x.set u a).get v = x.get v := by
  cases u <;> cases v <;> first | rfl | exact absurd rfl h

theorem Six.get_set {α : Type} (x : Six α) (u v : UnitNo) (a : α) :
    (x.set u a).get v = if v = u then a else x.get v := by
  cases u <;> cases v <;> rfl

@[simp] theorem Six.get_ofFn {α : Type} (f : UnitNo → α) (u : UnitNo) : (Six.ofFn f).get u = f u := by
  cases u <;> rfl

theorem Six.ext_get {α : Type} {x y : Six α} (h : ∀ u, x.get u = y.get u) : x = y := by
  cases x; cases y
  simp only [Six.mk.injEq]
  exact ⟨h .u1, h .u2, h .u3, h .u4, h .u5, h .u6⟩

@[simp] theorem Six.set_get_self {α : Type} (x : Six α) (u : UnitNo) : x.set u (x.get u) = x := by
  cases u <;> rfl

end Sys2Proof

namespace Sys2Proof.Machine

/-! ### Fields an update leaves alone -/

section modUnit
variable (p : Part) (u : UnitNo) (f : PumpUnit → PumpUnit)
@[simp] theorem Part.modUnit_gauge : (p.modUnit u f).gauge = p.gauge := rfl
@[simp] theorem Part.modUnit_curves : (p.modUnit u f).curves = p.curves := rfl
@[simp] theorem Part.modUnit_fallbackInUse : (p.modUnit u f).fallbackInUse = p.fallbackInUse := rfl
@[simp] theorem Part.modUnit_estimator : (p.modUnit u f).estimator = p.estimator := rfl
@[simp] theorem Part.modUnit_dispatcher : (p.modUnit u f).dispatcher = p.dispatcher := rfl
@[simp] theorem Part.modUnit_arbiter : (p.modUnit u f).arbiter = p.arbiter := rfl
@[simp] theorem Part.modUnit_sluice : (p.modUnit u f).sluice = p.sluice := rfl
@[simp] theorem Part.modUnit_cleaner : (p.modUnit u f).cleaner = p.cleaner := rfl
@[simp] theorem Part.modUnit_plan : (p.modUnit u f).plan = p.plan := rfl
@[simp] theorem Part.modUnit_supervision : (p.modUnit u f).supervision = p.supervision := rfl
@[simp] theorem Part.modUnit_accounting : (p.modUnit u f).accounting = p.accounting := rfl
@[simp] theorem Part.modUnit_link : (p.modUnit u f).link = p.link := rfl
@[simp] theorem Part.modUnit_events : (p.modUnit u f).events = p.events := rfl
@[simp] theorem Part.modUnit_store : (p.modUnit u f).store = p.store := rfl
@[simp] theorem Part.modUnit_config : (p.modUnit u f).config = p.config := rfl
@[simp] theorem Part.modUnit_roundDue : (p.modUnit u f).roundDue = p.roundDue := rfl
@[simp] theorem Part.modUnit_freeCount : (p.modUnit u f).freeCount = p.freeCount := rfl
end modUnit

section setReserved
variable (p : Part) (u : UnitNo) (kw : Nat)
@[simp] theorem Part.setReserved_gauge : (p.setReserved u kw).gauge = p.gauge := rfl
@[simp] theorem Part.setReserved_curves : (p.setReserved u kw).curves = p.curves := rfl
@[simp] theorem Part.setReserved_fallbackInUse : (p.setReserved u kw).fallbackInUse = p.fallbackInUse := rfl
@[simp] theorem Part.setReserved_estimator : (p.setReserved u kw).estimator = p.estimator := rfl
@[simp] theorem Part.setReserved_dispatcher : (p.setReserved u kw).dispatcher = p.dispatcher := rfl
@[simp] theorem Part.setReserved_arbiter : (p.setReserved u kw).arbiter = p.arbiter := rfl
@[simp] theorem Part.setReserved_sluice : (p.setReserved u kw).sluice = p.sluice := rfl
@[simp] theorem Part.setReserved_cleaner : (p.setReserved u kw).cleaner = p.cleaner := rfl
@[simp] theorem Part.setReserved_plan : (p.setReserved u kw).plan = p.plan := rfl
@[simp] theorem Part.setReserved_supervision : (p.setReserved u kw).supervision = p.supervision := rfl
@[simp] theorem Part.setReserved_accounting : (p.setReserved u kw).accounting = p.accounting := rfl
@[simp] theorem Part.setReserved_link : (p.setReserved u kw).link = p.link := rfl
@[simp] theorem Part.setReserved_events : (p.setReserved u kw).events = p.events := rfl
@[simp] theorem Part.setReserved_store : (p.setReserved u kw).store = p.store := rfl
@[simp] theorem Part.setReserved_config : (p.setReserved u kw).config = p.config := rfl
@[simp] theorem Part.setReserved_roundDue : (p.setReserved u kw).roundDue = p.roundDue := rfl
@[simp] theorem Part.setReserved_freeCount : (p.setReserved u kw).freeCount = p.freeCount := rfl
end setReserved

section enterUnit
variable (p : Part) (u : UnitNo) (st : UnitState)
@[simp] theorem Part.enterUnit_gauge : (p.enterUnit u st).gauge = p.gauge := rfl
@[simp] theorem Part.enterUnit_curves : (p.enterUnit u st).curves = p.curves := rfl
@[simp] theorem Part.enterUnit_fallbackInUse : (p.enterUnit u st).fallbackInUse = p.fallbackInUse := rfl
@[simp] theorem Part.enterUnit_estimator : (p.enterUnit u st).estimator = p.estimator := rfl
@[simp] theorem Part.enterUnit_dispatcher : (p.enterUnit u st).dispatcher = p.dispatcher := rfl
@[simp] theorem Part.enterUnit_arbiter : (p.enterUnit u st).arbiter = p.arbiter := rfl
@[simp] theorem Part.enterUnit_sluice : (p.enterUnit u st).sluice = p.sluice := rfl
@[simp] theorem Part.enterUnit_cleaner : (p.enterUnit u st).cleaner = p.cleaner := rfl
@[simp] theorem Part.enterUnit_plan : (p.enterUnit u st).plan = p.plan := rfl
@[simp] theorem Part.enterUnit_supervision : (p.enterUnit u st).supervision = p.supervision := rfl
@[simp] theorem Part.enterUnit_accounting : (p.enterUnit u st).accounting = p.accounting := rfl
@[simp] theorem Part.enterUnit_link : (p.enterUnit u st).link = p.link := rfl
@[simp] theorem Part.enterUnit_events : (p.enterUnit u st).events = p.events := rfl
@[simp] theorem Part.enterUnit_store : (p.enterUnit u st).store = p.store := rfl
@[simp] theorem Part.enterUnit_config : (p.enterUnit u st).config = p.config := rfl
@[simp] theorem Part.enterUnit_roundDue : (p.enterUnit u st).roundDue = p.roundDue := rfl
@[simp] theorem Part.enterUnit_freeCount : (p.enterUnit u st).freeCount = p.freeCount := rfl
end enterUnit

section enterResting
variable (p : Part) (u : UnitNo)
@[simp] theorem Part.enterResting_gauge : (p.enterResting u).gauge = p.gauge := rfl
@[simp] theorem Part.enterResting_curves : (p.enterResting u).curves = p.curves := rfl
@[simp] theorem Part.enterResting_fallbackInUse : (p.enterResting u).fallbackInUse = p.fallbackInUse := rfl
@[simp] theorem Part.enterResting_estimator : (p.enterResting u).estimator = p.estimator := rfl
@[simp] theorem Part.enterResting_dispatcher : (p.enterResting u).dispatcher = p.dispatcher := rfl
@[simp] theorem Part.enterResting_arbiter : (p.enterResting u).arbiter = p.arbiter := rfl
@[simp] theorem Part.enterResting_sluice : (p.enterResting u).sluice = p.sluice := rfl
@[simp] theorem Part.enterResting_cleaner : (p.enterResting u).cleaner = p.cleaner := rfl
@[simp] theorem Part.enterResting_plan : (p.enterResting u).plan = p.plan := rfl
@[simp] theorem Part.enterResting_supervision : (p.enterResting u).supervision = p.supervision := rfl
@[simp] theorem Part.enterResting_accounting : (p.enterResting u).accounting = p.accounting := rfl
@[simp] theorem Part.enterResting_link : (p.enterResting u).link = p.link := rfl
@[simp] theorem Part.enterResting_events : (p.enterResting u).events = p.events := rfl
@[simp] theorem Part.enterResting_store : (p.enterResting u).store = p.store := rfl
@[simp] theorem Part.enterResting_config : (p.enterResting u).config = p.config := rfl
@[simp] theorem Part.enterResting_roundDue : (p.enterResting u).roundDue = p.roundDue := rfl
@[simp] theorem Part.enterResting_freeCount : (p.enterResting u).freeCount = p.freeCount := rfl
end enterResting

section enterStopping
variable (p : Part) (u : UnitNo)
@[simp] theorem Part.enterStopping_gauge : (p.enterStopping u).gauge = p.gauge := rfl
@[simp] theorem Part.enterStopping_curves : (p.enterStopping u).curves = p.curves := rfl
@[simp] theorem Part.enterStopping_fallbackInUse : (p.enterStopping u).fallbackInUse = p.fallbackInUse := rfl
@[simp] theorem Part.enterStopping_estimator : (p.enterStopping u).estimator = p.estimator := rfl
@[simp] theorem Part.enterStopping_dispatcher : (p.enterStopping u).dispatcher = p.dispatcher := rfl
@[simp] theorem Part.enterStopping_arbiter : (p.enterStopping u).arbiter = p.arbiter := rfl
@[simp] theorem Part.enterStopping_sluice : (p.enterStopping u).sluice = p.sluice := rfl
@[simp] theorem Part.enterStopping_cleaner : (p.enterStopping u).cleaner = p.cleaner := rfl
@[simp] theorem Part.enterStopping_plan : (p.enterStopping u).plan = p.plan := rfl
@[simp] theorem Part.enterStopping_supervision : (p.enterStopping u).supervision = p.supervision := rfl
@[simp] theorem Part.enterStopping_accounting : (p.enterStopping u).accounting = p.accounting := rfl
@[simp] theorem Part.enterStopping_link : (p.enterStopping u).link = p.link := rfl
@[simp] theorem Part.enterStopping_events : (p.enterStopping u).events = p.events := rfl
@[simp] theorem Part.enterStopping_store : (p.enterStopping u).store = p.store := rfl
@[simp] theorem Part.enterStopping_config : (p.enterStopping u).config = p.config := rfl
@[simp] theorem Part.enterStopping_roundDue : (p.enterStopping u).roundDue = p.roundDue := rfl
@[simp] theorem Part.enterStopping_freeCount : (p.enterStopping u).freeCount = p.freeCount := rfl
end enterStopping

section tripUnit
variable (p : Part) (u : UnitNo) (f : FaultCode)
@[simp] theorem Part.tripUnit_gauge : (p.tripUnit u f).gauge = p.gauge := rfl
@[simp] theorem Part.tripUnit_curves : (p.tripUnit u f).curves = p.curves := rfl
@[simp] theorem Part.tripUnit_fallbackInUse : (p.tripUnit u f).fallbackInUse = p.fallbackInUse := rfl
@[simp] theorem Part.tripUnit_estimator : (p.tripUnit u f).estimator = p.estimator := rfl
@[simp] theorem Part.tripUnit_dispatcher : (p.tripUnit u f).dispatcher = p.dispatcher := rfl
@[simp] theorem Part.tripUnit_arbiter : (p.tripUnit u f).arbiter = p.arbiter := rfl
@[simp] theorem Part.tripUnit_sluice : (p.tripUnit u f).sluice = p.sluice := rfl
@[simp] theorem Part.tripUnit_cleaner : (p.tripUnit u f).cleaner = p.cleaner := rfl
@[simp] theorem Part.tripUnit_plan : (p.tripUnit u f).plan = p.plan := rfl
@[simp] theorem Part.tripUnit_supervision : (p.tripUnit u f).supervision = p.supervision := rfl
@[simp] theorem Part.tripUnit_accounting : (p.tripUnit u f).accounting = p.accounting := rfl
@[simp] theorem Part.tripUnit_link : (p.tripUnit u f).link = p.link := rfl
@[simp] theorem Part.tripUnit_events : (p.tripUnit u f).events = p.events := rfl
@[simp] theorem Part.tripUnit_store : (p.tripUnit u f).store = p.store := rfl
@[simp] theorem Part.tripUnit_config : (p.tripUnit u f).config = p.config := rfl
@[simp] theorem Part.tripUnit_roundDue : (p.tripUnit u f).roundDue = p.roundDue := rfl
@[simp] theorem Part.tripUnit_freeCount : (p.tripUnit u f).freeCount = p.freeCount := rfl
end tripUnit

section setAuthority
variable (p : Part) (u : UnitNo) (a : Authority)
@[simp] theorem Part.setAuthority_gauge : (p.setAuthority u a).gauge = p.gauge := rfl
@[simp] theorem Part.setAuthority_curves : (p.setAuthority u a).curves = p.curves := rfl
@[simp] theorem Part.setAuthority_fallbackInUse : (p.setAuthority u a).fallbackInUse = p.fallbackInUse := rfl
@[simp] theorem Part.setAuthority_estimator : (p.setAuthority u a).estimator = p.estimator := rfl
@[simp] theorem Part.setAuthority_dispatcher : (p.setAuthority u a).dispatcher = p.dispatcher := rfl
@[simp] theorem Part.setAuthority_arbiter : (p.setAuthority u a).arbiter = p.arbiter := rfl
@[simp] theorem Part.setAuthority_sluice : (p.setAuthority u a).sluice = p.sluice := rfl
@[simp] theorem Part.setAuthority_cleaner : (p.setAuthority u a).cleaner = p.cleaner := rfl
@[simp] theorem Part.setAuthority_plan : (p.setAuthority u a).plan = p.plan := rfl
@[simp] theorem Part.setAuthority_supervision : (p.setAuthority u a).supervision = p.supervision := rfl
@[simp] theorem Part.setAuthority_accounting : (p.setAuthority u a).accounting = p.accounting := rfl
@[simp] theorem Part.setAuthority_link : (p.setAuthority u a).link = p.link := rfl
@[simp] theorem Part.setAuthority_events : (p.setAuthority u a).events = p.events := rfl
@[simp] theorem Part.setAuthority_store : (p.setAuthority u a).store = p.store := rfl
@[simp] theorem Part.setAuthority_config : (p.setAuthority u a).config = p.config := rfl
@[simp] theorem Part.setAuthority_roundDue : (p.setAuthority u a).roundDue = p.roundDue := rfl
@[simp] theorem Part.setAuthority_freeCount : (p.setAuthority u a).freeCount = p.freeCount := rfl
end setAuthority

section enterStarting
variable (p : Part) (u : UnitNo)
@[simp] theorem Part.enterStarting_gauge : (p.enterStarting u).gauge = p.gauge := rfl
@[simp] theorem Part.enterStarting_curves : (p.enterStarting u).curves = p.curves := rfl
@[simp] theorem Part.enterStarting_fallbackInUse : (p.enterStarting u).fallbackInUse = p.fallbackInUse := rfl
@[simp] theorem Part.enterStarting_estimator : (p.enterStarting u).estimator = p.estimator := rfl
@[simp] theorem Part.enterStarting_dispatcher : (p.enterStarting u).dispatcher = p.dispatcher := rfl
@[simp] theorem Part.enterStarting_arbiter : (p.enterStarting u).arbiter = p.arbiter := rfl
@[simp] theorem Part.enterStarting_sluice : (p.enterStarting u).sluice = p.sluice := rfl
@[simp] theorem Part.enterStarting_cleaner : (p.enterStarting u).cleaner = p.cleaner := rfl
@[simp] theorem Part.enterStarting_plan : (p.enterStarting u).plan = p.plan := rfl
@[simp] theorem Part.enterStarting_supervision : (p.enterStarting u).supervision = p.supervision := rfl
@[simp] theorem Part.enterStarting_link : (p.enterStarting u).link = p.link := rfl
@[simp] theorem Part.enterStarting_events : (p.enterStarting u).events = p.events := rfl
@[simp] theorem Part.enterStarting_store : (p.enterStarting u).store = p.store := rfl
@[simp] theorem Part.enterStarting_config : (p.enterStarting u).config = p.config := rfl
@[simp] theorem Part.enterStarting_roundDue : (p.enterStarting u).roundDue = p.roundDue := rfl
@[simp] theorem Part.enterStarting_freeCount : (p.enterStarting u).freeCount = p.freeCount := rfl
end enterStarting

section joinQueue
variable (p : Part) (u : UnitNo) (o : QueueOrigin)
@[simp] theorem Part.joinQueue_gauge : (p.joinQueue u o).gauge = p.gauge := rfl
@[simp] theorem Part.joinQueue_curves : (p.joinQueue u o).curves = p.curves := rfl
@[simp] theorem Part.joinQueue_fallbackInUse : (p.joinQueue u o).fallbackInUse = p.fallbackInUse := rfl
@[simp] theorem Part.joinQueue_estimator : (p.joinQueue u o).estimator = p.estimator := rfl
@[simp] theorem Part.joinQueue_dispatcher : (p.joinQueue u o).dispatcher = p.dispatcher := rfl
@[simp] theorem Part.joinQueue_sluice : (p.joinQueue u o).sluice = p.sluice := rfl
@[simp] theorem Part.joinQueue_cleaner : (p.joinQueue u o).cleaner = p.cleaner := rfl
@[simp] theorem Part.joinQueue_plan : (p.joinQueue u o).plan = p.plan := rfl
@[simp] theorem Part.joinQueue_supervision : (p.joinQueue u o).supervision = p.supervision := rfl
@[simp] theorem Part.joinQueue_accounting : (p.joinQueue u o).accounting = p.accounting := rfl
@[simp] theorem Part.joinQueue_link : (p.joinQueue u o).link = p.link := rfl
@[simp] theorem Part.joinQueue_events : (p.joinQueue u o).events = p.events := rfl
@[simp] theorem Part.joinQueue_store : (p.joinQueue u o).store = p.store := rfl
@[simp] theorem Part.joinQueue_config : (p.joinQueue u o).config = p.config := rfl
@[simp] theorem Part.joinQueue_freeCount : (p.joinQueue u o).freeCount = p.freeCount := rfl
end joinQueue

section sumLoads
variable (p : Part)
@[simp] theorem Part.sumLoads_gauge : p.sumLoads.gauge = p.gauge := rfl
@[simp] theorem Part.sumLoads_curves : p.sumLoads.curves = p.curves := rfl
@[simp] theorem Part.sumLoads_fallbackInUse : p.sumLoads.fallbackInUse = p.fallbackInUse := rfl
@[simp] theorem Part.sumLoads_units : p.sumLoads.units = p.units := rfl
@[simp] theorem Part.sumLoads_estimator : p.sumLoads.estimator = p.estimator := rfl
@[simp] theorem Part.sumLoads_dispatcher : p.sumLoads.dispatcher = p.dispatcher := rfl
@[simp] theorem Part.sumLoads_sluice : p.sumLoads.sluice = p.sluice := rfl
@[simp] theorem Part.sumLoads_cleaner : p.sumLoads.cleaner = p.cleaner := rfl
@[simp] theorem Part.sumLoads_plan : p.sumLoads.plan = p.plan := rfl
@[simp] theorem Part.sumLoads_supervision : p.sumLoads.supervision = p.supervision := rfl
@[simp] theorem Part.sumLoads_accounting : p.sumLoads.accounting = p.accounting := rfl
@[simp] theorem Part.sumLoads_link : p.sumLoads.link = p.link := rfl
@[simp] theorem Part.sumLoads_events : p.sumLoads.events = p.events := rfl
@[simp] theorem Part.sumLoads_store : p.sumLoads.store = p.store := rfl
@[simp] theorem Part.sumLoads_config : p.sumLoads.config = p.config := rfl
@[simp] theorem Part.sumLoads_roundDue : p.sumLoads.roundDue = p.roundDue := rfl
@[simp] theorem Part.sumLoads_freeCount : p.sumLoads.freeCount = p.freeCount := rfl
end sumLoads

section setQueue
variable (p : Part) (q : List QueueEntry)
@[simp] theorem Part.setQueue_gauge : (p.setQueue q).gauge = p.gauge := rfl
@[simp] theorem Part.setQueue_curves : (p.setQueue q).curves = p.curves := rfl
@[simp] theorem Part.setQueue_fallbackInUse : (p.setQueue q).fallbackInUse = p.fallbackInUse := rfl
@[simp] theorem Part.setQueue_units : (p.setQueue q).units = p.units := rfl
@[simp] theorem Part.setQueue_estimator : (p.setQueue q).estimator = p.estimator := rfl
@[simp] theorem Part.setQueue_dispatcher : (p.setQueue q).dispatcher = p.dispatcher := rfl
@[simp] theorem Part.setQueue_sluice : (p.setQueue q).sluice = p.sluice := rfl
@[simp] theorem Part.setQueue_cleaner : (p.setQueue q).cleaner = p.cleaner := rfl
@[simp] theorem Part.setQueue_plan : (p.setQueue q).plan = p.plan := rfl
@[simp] theorem Part.setQueue_supervision : (p.setQueue q).supervision = p.supervision := rfl
@[simp] theorem Part.setQueue_accounting : (p.setQueue q).accounting = p.accounting := rfl
@[simp] theorem Part.setQueue_link : (p.setQueue q).link = p.link := rfl
@[simp] theorem Part.setQueue_events : (p.setQueue q).events = p.events := rfl
@[simp] theorem Part.setQueue_store : (p.setQueue q).store = p.store := rfl
@[simp] theorem Part.setQueue_config : (p.setQueue q).config = p.config := rfl
@[simp] theorem Part.setQueue_roundDue : (p.setQueue q).roundDue = p.roundDue := rfl
@[simp] theorem Part.setQueue_freeCount : (p.setQueue q).freeCount = p.freeCount := rfl
end setQueue

section dropEntry
variable (p : Part) (u : UnitNo)
@[simp] theorem Part.dropEntry_gauge : (p.dropEntry u).gauge = p.gauge := rfl
@[simp] theorem Part.dropEntry_curves : (p.dropEntry u).curves = p.curves := rfl
@[simp] theorem Part.dropEntry_fallbackInUse : (p.dropEntry u).fallbackInUse = p.fallbackInUse := rfl
@[simp] theorem Part.dropEntry_units : (p.dropEntry u).units = p.units := rfl
@[simp] theorem Part.dropEntry_estimator : (p.dropEntry u).estimator = p.estimator := rfl
@[simp] theorem Part.dropEntry_dispatcher : (p.dropEntry u).dispatcher = p.dispatcher := rfl
@[simp] theorem Part.dropEntry_sluice : (p.dropEntry u).sluice = p.sluice := rfl
@[simp] theorem Part.dropEntry_cleaner : (p.dropEntry u).cleaner = p.cleaner := rfl
@[simp] theorem Part.dropEntry_plan : (p.dropEntry u).plan = p.plan := rfl
@[simp] theorem Part.dropEntry_supervision : (p.dropEntry u).supervision = p.supervision := rfl
@[simp] theorem Part.dropEntry_accounting : (p.dropEntry u).accounting = p.accounting := rfl
@[simp] theorem Part.dropEntry_link : (p.dropEntry u).link = p.link := rfl
@[simp] theorem Part.dropEntry_events : (p.dropEntry u).events = p.events := rfl
@[simp] theorem Part.dropEntry_store : (p.dropEntry u).store = p.store := rfl
@[simp] theorem Part.dropEntry_config : (p.dropEntry u).config = p.config := rfl
@[simp] theorem Part.dropEntry_roundDue : (p.dropEntry u).roundDue = p.roundDue := rfl
@[simp] theorem Part.dropEntry_freeCount : (p.dropEntry u).freeCount = p.freeCount := rfl
end dropEntry

section startShedDelay
variable (p : Part)
@[simp] theorem Part.startShedDelay_gauge : p.startShedDelay.gauge = p.gauge := rfl
@[simp] theorem Part.startShedDelay_curves : p.startShedDelay.curves = p.curves := rfl
@[simp] theorem Part.startShedDelay_fallbackInUse : p.startShedDelay.fallbackInUse = p.fallbackInUse := rfl
@[simp] theorem Part.startShedDelay_units : p.startShedDelay.units = p.units := rfl
@[simp] theorem Part.startShedDelay_estimator : p.startShedDelay.estimator = p.estimator := rfl
@[simp] theorem Part.startShedDelay_dispatcher : p.startShedDelay.dispatcher = p.dispatcher := rfl
@[simp] theorem Part.startShedDelay_sluice : p.startShedDelay.sluice = p.sluice := rfl
@[simp] theorem Part.startShedDelay_cleaner : p.startShedDelay.cleaner = p.cleaner := rfl
@[simp] theorem Part.startShedDelay_plan : p.startShedDelay.plan = p.plan := rfl
@[simp] theorem Part.startShedDelay_supervision : p.startShedDelay.supervision = p.supervision := rfl
@[simp] theorem Part.startShedDelay_accounting : p.startShedDelay.accounting = p.accounting := rfl
@[simp] theorem Part.startShedDelay_link : p.startShedDelay.link = p.link := rfl
@[simp] theorem Part.startShedDelay_events : p.startShedDelay.events = p.events := rfl
@[simp] theorem Part.startShedDelay_store : p.startShedDelay.store = p.store := rfl
@[simp] theorem Part.startShedDelay_config : p.startShedDelay.config = p.config := rfl
@[simp] theorem Part.startShedDelay_roundDue : p.startShedDelay.roundDue = p.roundDue := rfl
@[simp] theorem Part.startShedDelay_freeCount : p.startShedDelay.freeCount = p.freeCount := rfl
end startShedDelay

section formBudget
variable (p : Part)
@[simp] theorem Part.formBudget_gauge : p.formBudget.gauge = p.gauge := rfl
@[simp] theorem Part.formBudget_curves : p.formBudget.curves = p.curves := rfl
@[simp] theorem Part.formBudget_fallbackInUse : p.formBudget.fallbackInUse = p.fallbackInUse := rfl
@[simp] theorem Part.formBudget_units : p.formBudget.units = p.units := rfl
@[simp] theorem Part.formBudget_estimator : p.formBudget.estimator = p.estimator := rfl
@[simp] theorem Part.formBudget_dispatcher : p.formBudget.dispatcher = p.dispatcher := rfl
@[simp] theorem Part.formBudget_sluice : p.formBudget.sluice = p.sluice := rfl
@[simp] theorem Part.formBudget_cleaner : p.formBudget.cleaner = p.cleaner := rfl
@[simp] theorem Part.formBudget_plan : p.formBudget.plan = p.plan := rfl
@[simp] theorem Part.formBudget_supervision : p.formBudget.supervision = p.supervision := rfl
@[simp] theorem Part.formBudget_accounting : p.formBudget.accounting = p.accounting := rfl
@[simp] theorem Part.formBudget_link : p.formBudget.link = p.link := rfl
@[simp] theorem Part.formBudget_events : p.formBudget.events = p.events := rfl
@[simp] theorem Part.formBudget_store : p.formBudget.store = p.store := rfl
@[simp] theorem Part.formBudget_config : p.formBudget.config = p.config := rfl
@[simp] theorem Part.formBudget_roundDue : p.formBudget.roundDue = p.roundDue := rfl
@[simp] theorem Part.formBudget_freeCount : p.formBudget.freeCount = p.freeCount := rfl
end formBudget

section record
variable (p : Part) (c : EventCode) (u : Option UnitNo) (v : Option Int)
@[simp] theorem Part.record_gauge : (p.record c u v).gauge = p.gauge := rfl
@[simp] theorem Part.record_curves : (p.record c u v).curves = p.curves := rfl
@[simp] theorem Part.record_fallbackInUse : (p.record c u v).fallbackInUse = p.fallbackInUse := rfl
@[simp] theorem Part.record_units : (p.record c u v).units = p.units := rfl
@[simp] theorem Part.record_estimator : (p.record c u v).estimator = p.estimator := rfl
@[simp] theorem Part.record_dispatcher : (p.record c u v).dispatcher = p.dispatcher := rfl
@[simp] theorem Part.record_arbiter : (p.record c u v).arbiter = p.arbiter := rfl
@[simp] theorem Part.record_sluice : (p.record c u v).sluice = p.sluice := rfl
@[simp] theorem Part.record_cleaner : (p.record c u v).cleaner = p.cleaner := rfl
@[simp] theorem Part.record_plan : (p.record c u v).plan = p.plan := rfl
@[simp] theorem Part.record_supervision : (p.record c u v).supervision = p.supervision := rfl
@[simp] theorem Part.record_accounting : (p.record c u v).accounting = p.accounting := rfl
@[simp] theorem Part.record_link : (p.record c u v).link = p.link := rfl
@[simp] theorem Part.record_store : (p.record c u v).store = p.store := rfl
@[simp] theorem Part.record_config : (p.record c u v).config = p.config := rfl
@[simp] theorem Part.record_roundDue : (p.record c u v).roundDue = p.roundDue := rfl
end record

section modLink
variable (p : Part) (f : Link → Link)
@[simp] theorem Part.modLink_gauge : (p.modLink f).gauge = p.gauge := rfl
@[simp] theorem Part.modLink_curves : (p.modLink f).curves = p.curves := rfl
@[simp] theorem Part.modLink_fallbackInUse : (p.modLink f).fallbackInUse = p.fallbackInUse := rfl
@[simp] theorem Part.modLink_units : (p.modLink f).units = p.units := rfl
@[simp] theorem Part.modLink_estimator : (p.modLink f).estimator = p.estimator := rfl
@[simp] theorem Part.modLink_dispatcher : (p.modLink f).dispatcher = p.dispatcher := rfl
@[simp] theorem Part.modLink_arbiter : (p.modLink f).arbiter = p.arbiter := rfl
@[simp] theorem Part.modLink_sluice : (p.modLink f).sluice = p.sluice := rfl
@[simp] theorem Part.modLink_cleaner : (p.modLink f).cleaner = p.cleaner := rfl
@[simp] theorem Part.modLink_plan : (p.modLink f).plan = p.plan := rfl
@[simp] theorem Part.modLink_supervision : (p.modLink f).supervision = p.supervision := rfl
@[simp] theorem Part.modLink_accounting : (p.modLink f).accounting = p.accounting := rfl
@[simp] theorem Part.modLink_events : (p.modLink f).events = p.events := rfl
@[simp] theorem Part.modLink_store : (p.modLink f).store = p.store := rfl
@[simp] theorem Part.modLink_config : (p.modLink f).config = p.config := rfl
@[simp] theorem Part.modLink_roundDue : (p.modLink f).roundDue = p.roundDue := rfl
@[simp] theorem Part.modLink_freeCount : (p.modLink f).freeCount = p.freeCount := rfl
end modLink

section reply
variable (p : Part) (k t : Byte) (r : Response)
@[simp] theorem Part.reply_gauge : (p.reply k t r).gauge = p.gauge := rfl
@[simp] theorem Part.reply_curves : (p.reply k t r).curves = p.curves := rfl
@[simp] theorem Part.reply_fallbackInUse : (p.reply k t r).fallbackInUse = p.fallbackInUse := rfl
@[simp] theorem Part.reply_units : (p.reply k t r).units = p.units := rfl
@[simp] theorem Part.reply_estimator : (p.reply k t r).estimator = p.estimator := rfl
@[simp] theorem Part.reply_dispatcher : (p.reply k t r).dispatcher = p.dispatcher := rfl
@[simp] theorem Part.reply_arbiter : (p.reply k t r).arbiter = p.arbiter := rfl
@[simp] theorem Part.reply_sluice : (p.reply k t r).sluice = p.sluice := rfl
@[simp] theorem Part.reply_cleaner : (p.reply k t r).cleaner = p.cleaner := rfl
@[simp] theorem Part.reply_plan : (p.reply k t r).plan = p.plan := rfl
@[simp] theorem Part.reply_supervision : (p.reply k t r).supervision = p.supervision := rfl
@[simp] theorem Part.reply_accounting : (p.reply k t r).accounting = p.accounting := rfl
@[simp] theorem Part.reply_events : (p.reply k t r).events = p.events := rfl
@[simp] theorem Part.reply_store : (p.reply k t r).store = p.store := rfl
@[simp] theorem Part.reply_config : (p.reply k t r).config = p.config := rfl
@[simp] theorem Part.reply_roundDue : (p.reply k t r).roundDue = p.roundDue := rfl
@[simp] theorem Part.reply_freeCount : (p.reply k t r).freeCount = p.freeCount := rfl
end reply

section restartSupervision
variable (p : Part)
@[simp] theorem Part.restartSupervision_gauge : p.restartSupervision.gauge = p.gauge := rfl
@[simp] theorem Part.restartSupervision_curves : p.restartSupervision.curves = p.curves := rfl
@[simp] theorem Part.restartSupervision_fallbackInUse : p.restartSupervision.fallbackInUse = p.fallbackInUse := rfl
@[simp] theorem Part.restartSupervision_units : p.restartSupervision.units = p.units := rfl
@[simp] theorem Part.restartSupervision_estimator : p.restartSupervision.estimator = p.estimator := rfl
@[simp] theorem Part.restartSupervision_dispatcher : p.restartSupervision.dispatcher = p.dispatcher := rfl
@[simp] theorem Part.restartSupervision_arbiter : p.restartSupervision.arbiter = p.arbiter := rfl
@[simp] theorem Part.restartSupervision_sluice : p.restartSupervision.sluice = p.sluice := rfl
@[simp] theorem Part.restartSupervision_cleaner : p.restartSupervision.cleaner = p.cleaner := rfl
@[simp] theorem Part.restartSupervision_plan : p.restartSupervision.plan = p.plan := rfl
@[simp] theorem Part.restartSupervision_accounting : p.restartSupervision.accounting = p.accounting := rfl
@[simp] theorem Part.restartSupervision_link : p.restartSupervision.link = p.link := rfl
@[simp] theorem Part.restartSupervision_events : p.restartSupervision.events = p.events := rfl
@[simp] theorem Part.restartSupervision_store : p.restartSupervision.store = p.store := rfl
@[simp] theorem Part.restartSupervision_config : p.restartSupervision.config = p.config := rfl
@[simp] theorem Part.restartSupervision_roundDue : p.restartSupervision.roundDue = p.roundDue := rfl
@[simp] theorem Part.restartSupervision_freeCount : p.restartSupervision.freeCount = p.freeCount := rfl
end restartSupervision

section leaveRestartSet
variable (p : Part) (u : UnitNo)
@[simp] theorem Part.leaveRestartSet_gauge : (p.leaveRestartSet u).gauge = p.gauge := rfl
@[simp] theorem Part.leaveRestartSet_curves : (p.leaveRestartSet u).curves = p.curves := rfl
@[simp] theorem Part.leaveRestartSet_fallbackInUse : (p.leaveRestartSet u).fallbackInUse = p.fallbackInUse := rfl
@[simp] theorem Part.leaveRestartSet_units : (p.leaveRestartSet u).units = p.units := rfl
@[simp] theorem Part.leaveRestartSet_estimator : (p.leaveRestartSet u).estimator = p.estimator := rfl
@[simp] theorem Part.leaveRestartSet_dispatcher : (p.leaveRestartSet u).dispatcher = p.dispatcher := rfl
@[simp] theorem Part.leaveRestartSet_arbiter : (p.leaveRestartSet u).arbiter = p.arbiter := rfl
@[simp] theorem Part.leaveRestartSet_sluice : (p.leaveRestartSet u).sluice = p.sluice := rfl
@[simp] theorem Part.leaveRestartSet_cleaner : (p.leaveRestartSet u).cleaner = p.cleaner := rfl
@[simp] theorem Part.leaveRestartSet_plan : (p.leaveRestartSet u).plan = p.plan := rfl
@[simp] theorem Part.leaveRestartSet_accounting : (p.leaveRestartSet u).accounting = p.accounting := rfl
@[simp] theorem Part.leaveRestartSet_link : (p.leaveRestartSet u).link = p.link := rfl
@[simp] theorem Part.leaveRestartSet_events : (p.leaveRestartSet u).events = p.events := rfl
@[simp] theorem Part.leaveRestartSet_store : (p.leaveRestartSet u).store = p.store := rfl
@[simp] theorem Part.leaveRestartSet_config : (p.leaveRestartSet u).config = p.config := rfl
@[simp] theorem Part.leaveRestartSet_roundDue : (p.leaveRestartSet u).roundDue = p.roundDue := rfl
@[simp] theorem Part.leaveRestartSet_freeCount : (p.leaveRestartSet u).freeCount = p.freeCount := rfl
end leaveRestartSet

section sluiceTo
variable (p : Part) (st : SluiceState)
@[simp] theorem Part.sluiceTo_gauge : (p.sluiceTo st).gauge = p.gauge := rfl
@[simp] theorem Part.sluiceTo_curves : (p.sluiceTo st).curves = p.curves := rfl
@[simp] theorem Part.sluiceTo_fallbackInUse : (p.sluiceTo st).fallbackInUse = p.fallbackInUse := rfl
@[simp] theorem Part.sluiceTo_units : (p.sluiceTo st).units = p.units := rfl
@[simp] theorem Part.sluiceTo_dispatcher : (p.sluiceTo st).dispatcher = p.dispatcher := rfl
@[simp] theorem Part.sluiceTo_arbiter : (p.sluiceTo st).arbiter = p.arbiter := rfl
@[simp] theorem Part.sluiceTo_cleaner : (p.sluiceTo st).cleaner = p.cleaner := rfl
@[simp] theorem Part.sluiceTo_plan : (p.sluiceTo st).plan = p.plan := rfl
@[simp] theorem Part.sluiceTo_supervision : (p.sluiceTo st).supervision = p.supervision := rfl
@[simp] theorem Part.sluiceTo_accounting : (p.sluiceTo st).accounting = p.accounting := rfl
@[simp] theorem Part.sluiceTo_link : (p.sluiceTo st).link = p.link := rfl
@[simp] theorem Part.sluiceTo_events : (p.sluiceTo st).events = p.events := rfl
@[simp] theorem Part.sluiceTo_store : (p.sluiceTo st).store = p.store := rfl
@[simp] theorem Part.sluiceTo_config : (p.sluiceTo st).config = p.config := rfl
@[simp] theorem Part.sluiceTo_roundDue : (p.sluiceTo st).roundDue = p.roundDue := rfl
@[simp] theorem Part.sluiceTo_freeCount : (p.sluiceTo st).freeCount = p.freeCount := rfl
end sluiceTo

section releaseDrive
variable (p : Part)
@[simp] theorem Part.releaseDrive_gauge : p.releaseDrive.gauge = p.gauge := rfl
@[simp] theorem Part.releaseDrive_curves : p.releaseDrive.curves = p.curves := rfl
@[simp] theorem Part.releaseDrive_fallbackInUse : p.releaseDrive.fallbackInUse = p.fallbackInUse := rfl
@[simp] theorem Part.releaseDrive_units : p.releaseDrive.units = p.units := rfl
@[simp] theorem Part.releaseDrive_estimator : p.releaseDrive.estimator = p.estimator := rfl
@[simp] theorem Part.releaseDrive_dispatcher : p.releaseDrive.dispatcher = p.dispatcher := rfl
@[simp] theorem Part.releaseDrive_arbiter : p.releaseDrive.arbiter = p.arbiter := rfl
@[simp] theorem Part.releaseDrive_cleaner : p.releaseDrive.cleaner = p.cleaner := rfl
@[simp] theorem Part.releaseDrive_plan : p.releaseDrive.plan = p.plan := rfl
@[simp] theorem Part.releaseDrive_supervision : p.releaseDrive.supervision = p.supervision := rfl
@[simp] theorem Part.releaseDrive_accounting : p.releaseDrive.accounting = p.accounting := rfl
@[simp] theorem Part.releaseDrive_link : p.releaseDrive.link = p.link := rfl
@[simp] theorem Part.releaseDrive_events : p.releaseDrive.events = p.events := rfl
@[simp] theorem Part.releaseDrive_store : p.releaseDrive.store = p.store := rfl
@[simp] theorem Part.releaseDrive_config : p.releaseDrive.config = p.config := rfl
@[simp] theorem Part.releaseDrive_roundDue : p.releaseDrive.roundDue = p.roundDue := rfl
@[simp] theorem Part.releaseDrive_freeCount : p.releaseDrive.freeCount = p.freeCount := rfl
end releaseDrive

section driveClosed
variable (p : Part)
@[simp] theorem Part.driveClosed_gauge : p.driveClosed.gauge = p.gauge := rfl
@[simp] theorem Part.driveClosed_curves : p.driveClosed.curves = p.curves := rfl
@[simp] theorem Part.driveClosed_fallbackInUse : p.driveClosed.fallbackInUse = p.fallbackInUse := rfl
@[simp] theorem Part.driveClosed_units : p.driveClosed.units = p.units := rfl
@[simp] theorem Part.driveClosed_estimator : p.driveClosed.estimator = p.estimator := rfl
@[simp] theorem Part.driveClosed_dispatcher : p.driveClosed.dispatcher = p.dispatcher := rfl
@[simp] theorem Part.driveClosed_arbiter : p.driveClosed.arbiter = p.arbiter := rfl
@[simp] theorem Part.driveClosed_cleaner : p.driveClosed.cleaner = p.cleaner := rfl
@[simp] theorem Part.driveClosed_plan : p.driveClosed.plan = p.plan := rfl
@[simp] theorem Part.driveClosed_supervision : p.driveClosed.supervision = p.supervision := rfl
@[simp] theorem Part.driveClosed_accounting : p.driveClosed.accounting = p.accounting := rfl
@[simp] theorem Part.driveClosed_link : p.driveClosed.link = p.link := rfl
@[simp] theorem Part.driveClosed_events : p.driveClosed.events = p.events := rfl
@[simp] theorem Part.driveClosed_store : p.driveClosed.store = p.store := rfl
@[simp] theorem Part.driveClosed_config : p.driveClosed.config = p.config := rfl
@[simp] theorem Part.driveClosed_roundDue : p.driveClosed.roundDue = p.roundDue := rfl
@[simp] theorem Part.driveClosed_freeCount : p.driveClosed.freeCount = p.freeCount := rfl
end driveClosed

section waitForMains
variable (p : Part)
@[simp] theorem Part.waitForMains_gauge : p.waitForMains.gauge = p.gauge := rfl
@[simp] theorem Part.waitForMains_curves : p.waitForMains.curves = p.curves := rfl
@[simp] theorem Part.waitForMains_fallbackInUse : p.waitForMains.fallbackInUse = p.fallbackInUse := rfl
@[simp] theorem Part.waitForMains_units : p.waitForMains.units = p.units := rfl
@[simp] theorem Part.waitForMains_estimator : p.waitForMains.estimator = p.estimator := rfl
@[simp] theorem Part.waitForMains_dispatcher : p.waitForMains.dispatcher = p.dispatcher := rfl
@[simp] theorem Part.waitForMains_arbiter : p.waitForMains.arbiter = p.arbiter := rfl
@[simp] theorem Part.waitForMains_cleaner : p.waitForMains.cleaner = p.cleaner := rfl
@[simp] theorem Part.waitForMains_plan : p.waitForMains.plan = p.plan := rfl
@[simp] theorem Part.waitForMains_supervision : p.waitForMains.supervision = p.supervision := rfl
@[simp] theorem Part.waitForMains_accounting : p.waitForMains.accounting = p.accounting := rfl
@[simp] theorem Part.waitForMains_link : p.waitForMains.link = p.link := rfl
@[simp] theorem Part.waitForMains_events : p.waitForMains.events = p.events := rfl
@[simp] theorem Part.waitForMains_store : p.waitForMains.store = p.store := rfl
@[simp] theorem Part.waitForMains_config : p.waitForMains.config = p.config := rfl
@[simp] theorem Part.waitForMains_roundDue : p.waitForMains.roundDue = p.roundDue := rfl
@[simp] theorem Part.waitForMains_freeCount : p.waitForMains.freeCount = p.freeCount := rfl
end waitForMains

section startRake
variable (p : Part) (c : RakeCause)
@[simp] theorem Part.startRake_gauge : (p.startRake c).gauge = p.gauge := rfl
@[simp] theorem Part.startRake_curves : (p.startRake c).curves = p.curves := rfl
@[simp] theorem Part.startRake_fallbackInUse : (p.startRake c).fallbackInUse = p.fallbackInUse := rfl
@[simp] theorem Part.startRake_units : (p.startRake c).units = p.units := rfl
@[simp] theorem Part.startRake_estimator : (p.startRake c).estimator = p.estimator := rfl
@[simp] theorem Part.startRake_dispatcher : (p.startRake c).dispatcher = p.dispatcher := rfl
@[simp] theorem Part.startRake_arbiter : (p.startRake c).arbiter = p.arbiter := rfl
@[simp] theorem Part.startRake_sluice : (p.startRake c).sluice = p.sluice := rfl
@[simp] theorem Part.startRake_plan : (p.startRake c).plan = p.plan := rfl
@[simp] theorem Part.startRake_supervision : (p.startRake c).supervision = p.supervision := rfl
@[simp] theorem Part.startRake_accounting : (p.startRake c).accounting = p.accounting := rfl
@[simp] theorem Part.startRake_link : (p.startRake c).link = p.link := rfl
@[simp] theorem Part.startRake_events : (p.startRake c).events = p.events := rfl
@[simp] theorem Part.startRake_store : (p.startRake c).store = p.store := rfl
@[simp] theorem Part.startRake_config : (p.startRake c).config = p.config := rfl
@[simp] theorem Part.startRake_roundDue : (p.startRake c).roundDue = p.roundDue := rfl
@[simp] theorem Part.startRake_freeCount : (p.startRake c).freeCount = p.freeCount := rfl
end startRake

section cleanerIdle
variable (p : Part)
@[simp] theorem Part.cleanerIdle_gauge : p.cleanerIdle.gauge = p.gauge := rfl
@[simp] theorem Part.cleanerIdle_curves : p.cleanerIdle.curves = p.curves := rfl
@[simp] theorem Part.cleanerIdle_fallbackInUse : p.cleanerIdle.fallbackInUse = p.fallbackInUse := rfl
@[simp] theorem Part.cleanerIdle_units : p.cleanerIdle.units = p.units := rfl
@[simp] theorem Part.cleanerIdle_estimator : p.cleanerIdle.estimator = p.estimator := rfl
@[simp] theorem Part.cleanerIdle_dispatcher : p.cleanerIdle.dispatcher = p.dispatcher := rfl
@[simp] theorem Part.cleanerIdle_arbiter : p.cleanerIdle.arbiter = p.arbiter := rfl
@[simp] theorem Part.cleanerIdle_sluice : p.cleanerIdle.sluice = p.sluice := rfl
@[simp] theorem Part.cleanerIdle_plan : p.cleanerIdle.plan = p.plan := rfl
@[simp] theorem Part.cleanerIdle_supervision : p.cleanerIdle.supervision = p.supervision := rfl
@[simp] theorem Part.cleanerIdle_accounting : p.cleanerIdle.accounting = p.accounting := rfl
@[simp] theorem Part.cleanerIdle_link : p.cleanerIdle.link = p.link := rfl
@[simp] theorem Part.cleanerIdle_events : p.cleanerIdle.events = p.events := rfl
@[simp] theorem Part.cleanerIdle_store : p.cleanerIdle.store = p.store := rfl
@[simp] theorem Part.cleanerIdle_config : p.cleanerIdle.config = p.config := rfl
@[simp] theorem Part.cleanerIdle_roundDue : p.cleanerIdle.roundDue = p.roundDue := rfl
@[simp] theorem Part.cleanerIdle_freeCount : p.cleanerIdle.freeCount = p.freeCount := rfl
end cleanerIdle

section applyTarget
variable (p : Part) (t : Int) (b : Nat)
@[simp] theorem Part.applyTarget_gauge : (p.applyTarget t b).gauge = p.gauge := rfl
@[simp] theorem Part.applyTarget_curves : (p.applyTarget t b).curves = p.curves := rfl
@[simp] theorem Part.applyTarget_fallbackInUse : (p.applyTarget t b).fallbackInUse = p.fallbackInUse := rfl
@[simp] theorem Part.applyTarget_units : (p.applyTarget t b).units = p.units := rfl
@[simp] theorem Part.applyTarget_estimator : (p.applyTarget t b).estimator = p.estimator := rfl
@[simp] theorem Part.applyTarget_dispatcher : (p.applyTarget t b).dispatcher = p.dispatcher := rfl
@[simp] theorem Part.applyTarget_arbiter : (p.applyTarget t b).arbiter = p.arbiter := rfl
@[simp] theorem Part.applyTarget_sluice : (p.applyTarget t b).sluice = p.sluice := rfl
@[simp] theorem Part.applyTarget_cleaner : (p.applyTarget t b).cleaner = p.cleaner := rfl
@[simp] theorem Part.applyTarget_supervision : (p.applyTarget t b).supervision = p.supervision := rfl
@[simp] theorem Part.applyTarget_accounting : (p.applyTarget t b).accounting = p.accounting := rfl
@[simp] theorem Part.applyTarget_link : (p.applyTarget t b).link = p.link := rfl
@[simp] theorem Part.applyTarget_events : (p.applyTarget t b).events = p.events := rfl
@[simp] theorem Part.applyTarget_store : (p.applyTarget t b).store = p.store := rfl
@[simp] theorem Part.applyTarget_config : (p.applyTarget t b).config = p.config := rfl
@[simp] theorem Part.applyTarget_roundDue : (p.applyTarget t b).roundDue = p.roundDue := rfl
@[simp] theorem Part.applyTarget_freeCount : (p.applyTarget t b).freeCount = p.freeCount := rfl
end applyTarget

section applyEntry
variable (p : Part) (e : PlanEntry)
@[simp] theorem Part.applyEntry_gauge : (p.applyEntry e).gauge = p.gauge := rfl
@[simp] theorem Part.applyEntry_curves : (p.applyEntry e).curves = p.curves := rfl
@[simp] theorem Part.applyEntry_fallbackInUse : (p.applyEntry e).fallbackInUse = p.fallbackInUse := rfl
@[simp] theorem Part.applyEntry_units : (p.applyEntry e).units = p.units := rfl
@[simp] theorem Part.applyEntry_estimator : (p.applyEntry e).estimator = p.estimator := rfl
@[simp] theorem Part.applyEntry_dispatcher : (p.applyEntry e).dispatcher = p.dispatcher := rfl
@[simp] theorem Part.applyEntry_arbiter : (p.applyEntry e).arbiter = p.arbiter := rfl
@[simp] theorem Part.applyEntry_sluice : (p.applyEntry e).sluice = p.sluice := rfl
@[simp] theorem Part.applyEntry_cleaner : (p.applyEntry e).cleaner = p.cleaner := rfl
@[simp] theorem Part.applyEntry_supervision : (p.applyEntry e).supervision = p.supervision := rfl
@[simp] theorem Part.applyEntry_accounting : (p.applyEntry e).accounting = p.accounting := rfl
@[simp] theorem Part.applyEntry_link : (p.applyEntry e).link = p.link := rfl
@[simp] theorem Part.applyEntry_events : (p.applyEntry e).events = p.events := rfl
@[simp] theorem Part.applyEntry_store : (p.applyEntry e).store = p.store := rfl
@[simp] theorem Part.applyEntry_config : (p.applyEntry e).config = p.config := rfl
@[simp] theorem Part.applyEntry_roundDue : (p.applyEntry e).roundDue = p.roundDue := rfl
@[simp] theorem Part.applyEntry_freeCount : (p.applyEntry e).freeCount = p.freeCount := rfl
end applyEntry

section applyFallback
variable (p : Part)
@[simp] theorem Part.applyFallback_gauge : p.applyFallback.gauge = p.gauge := rfl
@[simp] theorem Part.applyFallback_curves : p.applyFallback.curves = p.curves := rfl
@[simp] theorem Part.applyFallback_fallbackInUse : p.applyFallback.fallbackInUse = p.fallbackInUse := rfl
@[simp] theorem Part.applyFallback_units : p.applyFallback.units = p.units := rfl
@[simp] theorem Part.applyFallback_estimator : p.applyFallback.estimator = p.estimator := rfl
@[simp] theorem Part.applyFallback_dispatcher : p.applyFallback.dispatcher = p.dispatcher := rfl
@[simp] theorem Part.applyFallback_arbiter : p.applyFallback.arbiter = p.arbiter := rfl
@[simp] theorem Part.applyFallback_sluice : p.applyFallback.sluice = p.sluice := rfl
@[simp] theorem Part.applyFallback_cleaner : p.applyFallback.cleaner = p.cleaner := rfl
@[simp] theorem Part.applyFallback_supervision : p.applyFallback.supervision = p.supervision := rfl
@[simp] theorem Part.applyFallback_accounting : p.applyFallback.accounting = p.accounting := rfl
@[simp] theorem Part.applyFallback_link : p.applyFallback.link = p.link := rfl
@[simp] theorem Part.applyFallback_events : p.applyFallback.events = p.events := rfl
@[simp] theorem Part.applyFallback_store : p.applyFallback.store = p.store := rfl
@[simp] theorem Part.applyFallback_config : p.applyFallback.config = p.config := rfl
@[simp] theorem Part.applyFallback_roundDue : p.applyFallback.roundDue = p.roundDue := rfl
@[simp] theorem Part.applyFallback_freeCount : p.applyFallback.freeCount = p.freeCount := rfl
end applyFallback

section setEntries
variable (p : Part) (es : List PlanEntry)
@[simp] theorem Part.setEntries_gauge : (p.setEntries es).gauge = p.gauge := rfl
@[simp] theorem Part.setEntries_curves : (p.setEntries es).curves = p.curves := rfl
@[simp] theorem Part.setEntries_fallbackInUse : (p.setEntries es).fallbackInUse = p.fallbackInUse := rfl
@[simp] theorem Part.setEntries_units : (p.setEntries es).units = p.units := rfl
@[simp] theorem Part.setEntries_estimator : (p.setEntries es).estimator = p.estimator := rfl
@[simp] theorem Part.setEntries_dispatcher : (p.setEntries es).dispatcher = p.dispatcher := rfl
@[simp] theorem Part.setEntries_arbiter : (p.setEntries es).arbiter = p.arbiter := rfl
@[simp] theorem Part.setEntries_sluice : (p.setEntries es).sluice = p.sluice := rfl
@[simp] theorem Part.setEntries_cleaner : (p.setEntries es).cleaner = p.cleaner := rfl
@[simp] theorem Part.setEntries_supervision : (p.setEntries es).supervision = p.supervision := rfl
@[simp] theorem Part.setEntries_accounting : (p.setEntries es).accounting = p.accounting := rfl
@[simp] theorem Part.setEntries_link : (p.setEntries es).link = p.link := rfl
@[simp] theorem Part.setEntries_events : (p.setEntries es).events = p.events := rfl
@[simp] theorem Part.setEntries_store : (p.setEntries es).store = p.store := rfl
@[simp] theorem Part.setEntries_config : (p.setEntries es).config = p.config := rfl
@[simp] theorem Part.setEntries_roundDue : (p.setEntries es).roundDue = p.roundDue := rfl
@[simp] theorem Part.setEntries_freeCount : (p.setEntries es).freeCount = p.freeCount := rfl
end setEntries

section formRanking
variable (p : Part)
@[simp] theorem Part.formRanking_gauge : p.formRanking.gauge = p.gauge := rfl
@[simp] theorem Part.formRanking_curves : p.formRanking.curves = p.curves := rfl
@[simp] theorem Part.formRanking_fallbackInUse : p.formRanking.fallbackInUse = p.fallbackInUse := rfl
@[simp] theorem Part.formRanking_units : p.formRanking.units = p.units := rfl
@[simp] theorem Part.formRanking_estimator : p.formRanking.estimator = p.estimator := rfl
@[simp] theorem Part.formRanking_arbiter : p.formRanking.arbiter = p.arbiter := rfl
@[simp] theorem Part.formRanking_sluice : p.formRanking.sluice = p.sluice := rfl
@[simp] theorem Part.formRanking_cleaner : p.formRanking.cleaner = p.cleaner := rfl
@[simp] theorem Part.formRanking_plan : p.formRanking.plan = p.plan := rfl
@[simp] theorem Part.formRanking_supervision : p.formRanking.supervision = p.supervision := rfl
@[simp] theorem Part.formRanking_accounting : p.formRanking.accounting = p.accounting := rfl
@[simp] theorem Part.formRanking_link : p.formRanking.link = p.link := rfl
@[simp] theorem Part.formRanking_events : p.formRanking.events = p.events := rfl
@[simp] theorem Part.formRanking_store : p.formRanking.store = p.store := rfl
@[simp] theorem Part.formRanking_config : p.formRanking.config = p.config := rfl
@[simp] theorem Part.formRanking_roundDue : p.formRanking.roundDue = p.roundDue := rfl
@[simp] theorem Part.formRanking_freeCount : p.formRanking.freeCount = p.freeCount := rfl
end formRanking

section startEvaluation
variable (p : Part)
@[simp] theorem Part.startEvaluation_gauge : p.startEvaluation.gauge = p.gauge := rfl
@[simp] theorem Part.startEvaluation_curves : p.startEvaluation.curves = p.curves := rfl
@[simp] theorem Part.startEvaluation_fallbackInUse : p.startEvaluation.fallbackInUse = p.fallbackInUse := rfl
@[simp] theorem Part.startEvaluation_units : p.startEvaluation.units = p.units := rfl
@[simp] theorem Part.startEvaluation_estimator : p.startEvaluation.estimator = p.estimator := rfl
@[simp] theorem Part.startEvaluation_arbiter : p.startEvaluation.arbiter = p.arbiter := rfl
@[simp] theorem Part.startEvaluation_sluice : p.startEvaluation.sluice = p.sluice := rfl
@[simp] theorem Part.startEvaluation_cleaner : p.startEvaluation.cleaner = p.cleaner := rfl
@[simp] theorem Part.startEvaluation_plan : p.startEvaluation.plan = p.plan := rfl
@[simp] theorem Part.startEvaluation_supervision : p.startEvaluation.supervision = p.supervision := rfl
@[simp] theorem Part.startEvaluation_accounting : p.startEvaluation.accounting = p.accounting := rfl
@[simp] theorem Part.startEvaluation_link : p.startEvaluation.link = p.link := rfl
@[simp] theorem Part.startEvaluation_events : p.startEvaluation.events = p.events := rfl
@[simp] theorem Part.startEvaluation_store : p.startEvaluation.store = p.store := rfl
@[simp] theorem Part.startEvaluation_config : p.startEvaluation.config = p.config := rfl
@[simp] theorem Part.startEvaluation_roundDue : p.startEvaluation.roundDue = p.roundDue := rfl
@[simp] theorem Part.startEvaluation_freeCount : p.startEvaluation.freeCount = p.freeCount := rfl
end startEvaluation

section formCurves
variable (p : Part) (snap : Snapshot)
@[simp] theorem Part.formCurves_gauge : (p.formCurves snap).gauge = p.gauge := rfl
@[simp] theorem Part.formCurves_units : (p.formCurves snap).units = p.units := rfl
@[simp] theorem Part.formCurves_estimator : (p.formCurves snap).estimator = p.estimator := rfl
@[simp] theorem Part.formCurves_dispatcher : (p.formCurves snap).dispatcher = p.dispatcher := rfl
@[simp] theorem Part.formCurves_arbiter : (p.formCurves snap).arbiter = p.arbiter := rfl
@[simp] theorem Part.formCurves_sluice : (p.formCurves snap).sluice = p.sluice := rfl
@[simp] theorem Part.formCurves_cleaner : (p.formCurves snap).cleaner = p.cleaner := rfl
@[simp] theorem Part.formCurves_plan : (p.formCurves snap).plan = p.plan := rfl
@[simp] theorem Part.formCurves_supervision : (p.formCurves snap).supervision = p.supervision := rfl
@[simp] theorem Part.formCurves_accounting : (p.formCurves snap).accounting = p.accounting := rfl
@[simp] theorem Part.formCurves_link : (p.formCurves snap).link = p.link := rfl
@[simp] theorem Part.formCurves_events : (p.formCurves snap).events = p.events := rfl
@[simp] theorem Part.formCurves_store : (p.formCurves snap).store = p.store := rfl
@[simp] theorem Part.formCurves_config : (p.formCurves snap).config = p.config := rfl
@[simp] theorem Part.formCurves_roundDue : (p.formCurves snap).roundDue = p.roundDue := rfl
@[simp] theorem Part.formCurves_freeCount : (p.formCurves snap).freeCount = p.freeCount := rfl
end formCurves

section reformCurve
variable (p : Part) (u : UnitNo)
@[simp] theorem Part.reformCurve_gauge : (p.reformCurve u).gauge = p.gauge := rfl
@[simp] theorem Part.reformCurve_fallbackInUse : (p.reformCurve u).fallbackInUse = p.fallbackInUse := rfl
@[simp] theorem Part.reformCurve_units : (p.reformCurve u).units = p.units := rfl
@[simp] theorem Part.reformCurve_estimator : (p.reformCurve u).estimator = p.estimator := rfl
@[simp] theorem Part.reformCurve_dispatcher : (p.reformCurve u).dispatcher = p.dispatcher := rfl
@[simp] theorem Part.reformCurve_arbiter : (p.reformCurve u).arbiter = p.arbiter := rfl
@[simp] theorem Part.reformCurve_sluice : (p.reformCurve u).sluice = p.sluice := rfl
@[simp] theorem Part.reformCurve_cleaner : (p.reformCurve u).cleaner = p.cleaner := rfl
@[simp] theorem Part.reformCurve_plan : (p.reformCurve u).plan = p.plan := rfl
@[simp] theorem Part.reformCurve_supervision : (p.reformCurve u).supervision = p.supervision := rfl
@[simp] theorem Part.reformCurve_accounting : (p.reformCurve u).accounting = p.accounting := rfl
@[simp] theorem Part.reformCurve_link : (p.reformCurve u).link = p.link := rfl
@[simp] theorem Part.reformCurve_events : (p.reformCurve u).events = p.events := rfl
@[simp] theorem Part.reformCurve_store : (p.reformCurve u).store = p.store := rfl
@[simp] theorem Part.reformCurve_config : (p.reformCurve u).config = p.config := rfl
@[simp] theorem Part.reformCurve_roundDue : (p.reformCurve u).roundDue = p.roundDue := rfl
@[simp] theorem Part.reformCurve_freeCount : (p.reformCurve u).freeCount = p.freeCount := rfl
end reformCurve

section sampleChannels
variable (p : Part) (cur : Currents)
@[simp] theorem Part.sampleChannels_curves : (p.sampleChannels cur).curves = p.curves := rfl
@[simp] theorem Part.sampleChannels_fallbackInUse : (p.sampleChannels cur).fallbackInUse = p.fallbackInUse := rfl
@[simp] theorem Part.sampleChannels_units : (p.sampleChannels cur).units = p.units := rfl
@[simp] theorem Part.sampleChannels_estimator : (p.sampleChannels cur).estimator = p.estimator := rfl
@[simp] theorem Part.sampleChannels_dispatcher : (p.sampleChannels cur).dispatcher = p.dispatcher := rfl
@[simp] theorem Part.sampleChannels_arbiter : (p.sampleChannels cur).arbiter = p.arbiter := rfl
@[simp] theorem Part.sampleChannels_sluice : (p.sampleChannels cur).sluice = p.sluice := rfl
@[simp] theorem Part.sampleChannels_cleaner : (p.sampleChannels cur).cleaner = p.cleaner := rfl
@[simp] theorem Part.sampleChannels_plan : (p.sampleChannels cur).plan = p.plan := rfl
@[simp] theorem Part.sampleChannels_supervision : (p.sampleChannels cur).supervision = p.supervision := rfl
@[simp] theorem Part.sampleChannels_accounting : (p.sampleChannels cur).accounting = p.accounting := rfl
@[simp] theorem Part.sampleChannels_link : (p.sampleChannels cur).link = p.link := rfl
@[simp] theorem Part.sampleChannels_events : (p.sampleChannels cur).events = p.events := rfl
@[simp] theorem Part.sampleChannels_store : (p.sampleChannels cur).store = p.store := rfl
@[simp] theorem Part.sampleChannels_config : (p.sampleChannels cur).config = p.config := rfl
@[simp] theorem Part.sampleChannels_roundDue : (p.sampleChannels cur).roundDue = p.roundDue := rfl
@[simp] theorem Part.sampleChannels_freeCount : (p.sampleChannels cur).freeCount = p.freeCount := rfl
end sampleChannels

section setFloats
variable (p : Part) (h l : Bool)
@[simp] theorem Part.setFloats_curves : (p.setFloats h l).curves = p.curves := rfl
@[simp] theorem Part.setFloats_fallbackInUse : (p.setFloats h l).fallbackInUse = p.fallbackInUse := rfl
@[simp] theorem Part.setFloats_units : (p.setFloats h l).units = p.units := rfl
@[simp] theorem Part.setFloats_estimator : (p.setFloats h l).estimator = p.estimator := rfl
@[simp] theorem Part.setFloats_dispatcher : (p.setFloats h l).dispatcher = p.dispatcher := rfl
@[simp] theorem Part.setFloats_arbiter : (p.setFloats h l).arbiter = p.arbiter := rfl
@[simp] theorem Part.setFloats_sluice : (p.setFloats h l).sluice = p.sluice := rfl
@[simp] theorem Part.setFloats_cleaner : (p.setFloats h l).cleaner = p.cleaner := rfl
@[simp] theorem Part.setFloats_plan : (p.setFloats h l).plan = p.plan := rfl
@[simp] theorem Part.setFloats_supervision : (p.setFloats h l).supervision = p.supervision := rfl
@[simp] theorem Part.setFloats_accounting : (p.setFloats h l).accounting = p.accounting := rfl
@[simp] theorem Part.setFloats_link : (p.setFloats h l).link = p.link := rfl
@[simp] theorem Part.setFloats_events : (p.setFloats h l).events = p.events := rfl
@[simp] theorem Part.setFloats_store : (p.setFloats h l).store = p.store := rfl
@[simp] theorem Part.setFloats_config : (p.setFloats h l).config = p.config := rfl
@[simp] theorem Part.setFloats_roundDue : (p.setFloats h l).roundDue = p.roundDue := rfl
@[simp] theorem Part.setFloats_freeCount : (p.setFloats h l).freeCount = p.freeCount := rfl
end setFloats

section decideMode
variable (p : Part) (snap : Snapshot)
@[simp] theorem Part.decideMode_curves : (p.decideMode snap).curves = p.curves := rfl
@[simp] theorem Part.decideMode_fallbackInUse : (p.decideMode snap).fallbackInUse = p.fallbackInUse := rfl
@[simp] theorem Part.decideMode_units : (p.decideMode snap).units = p.units := rfl
@[simp] theorem Part.decideMode_estimator : (p.decideMode snap).estimator = p.estimator := rfl
@[simp] theorem Part.decideMode_dispatcher : (p.decideMode snap).dispatcher = p.dispatcher := rfl
@[simp] theorem Part.decideMode_arbiter : (p.decideMode snap).arbiter = p.arbiter := rfl
@[simp] theorem Part.decideMode_sluice : (p.decideMode snap).sluice = p.sluice := rfl
@[simp] theorem Part.decideMode_cleaner : (p.decideMode snap).cleaner = p.cleaner := rfl
@[simp] theorem Part.decideMode_plan : (p.decideMode snap).plan = p.plan := rfl
@[simp] theorem Part.decideMode_supervision : (p.decideMode snap).supervision = p.supervision := rfl
@[simp] theorem Part.decideMode_accounting : (p.decideMode snap).accounting = p.accounting := rfl
@[simp] theorem Part.decideMode_link : (p.decideMode snap).link = p.link := rfl
@[simp] theorem Part.decideMode_events : (p.decideMode snap).events = p.events := rfl
@[simp] theorem Part.decideMode_store : (p.decideMode snap).store = p.store := rfl
@[simp] theorem Part.decideMode_config : (p.decideMode snap).config = p.config := rfl
@[simp] theorem Part.decideMode_freeCount : (p.decideMode snap).freeCount = p.freeCount := rfl
end decideMode

section setEnabled
variable (p : Part) (u : UnitNo) (b : Bool)
@[simp] theorem Part.setEnabled_gauge : (p.setEnabled u b).gauge = p.gauge := rfl
@[simp] theorem Part.setEnabled_curves : (p.setEnabled u b).curves = p.curves := rfl
@[simp] theorem Part.setEnabled_fallbackInUse : (p.setEnabled u b).fallbackInUse = p.fallbackInUse := rfl
@[simp] theorem Part.setEnabled_units : (p.setEnabled u b).units = p.units := rfl
@[simp] theorem Part.setEnabled_estimator : (p.setEnabled u b).estimator = p.estimator := rfl
@[simp] theorem Part.setEnabled_dispatcher : (p.setEnabled u b).dispatcher = p.dispatcher := rfl
@[simp] theorem Part.setEnabled_arbiter : (p.setEnabled u b).arbiter = p.arbiter := rfl
@[simp] theorem Part.setEnabled_sluice : (p.setEnabled u b).sluice = p.sluice := rfl
@[simp] theorem Part.setEnabled_cleaner : (p.setEnabled u b).cleaner = p.cleaner := rfl
@[simp] theorem Part.setEnabled_plan : (p.setEnabled u b).plan = p.plan := rfl
@[simp] theorem Part.setEnabled_supervision : (p.setEnabled u b).supervision = p.supervision := rfl
@[simp] theorem Part.setEnabled_accounting : (p.setEnabled u b).accounting = p.accounting := rfl
@[simp] theorem Part.setEnabled_link : (p.setEnabled u b).link = p.link := rfl
@[simp] theorem Part.setEnabled_events : (p.setEnabled u b).events = p.events := rfl
@[simp] theorem Part.setEnabled_store : (p.setEnabled u b).store = p.store := rfl
@[simp] theorem Part.setEnabled_roundDue : (p.setEnabled u b).roundDue = p.roundDue := rfl
@[simp] theorem Part.setEnabled_freeCount : (p.setEnabled u b).freeCount = p.freeCount := rfl
end setEnabled

section closeInterval
variable (p : Part)
@[simp] theorem Part.closeInterval_gauge : p.closeInterval.gauge = p.gauge := rfl
@[simp] theorem Part.closeInterval_curves : p.closeInterval.curves = p.curves := rfl
@[simp] theorem Part.closeInterval_fallbackInUse : p.closeInterval.fallbackInUse = p.fallbackInUse := rfl
@[simp] theorem Part.closeInterval_units : p.closeInterval.units = p.units := rfl
@[simp] theorem Part.closeInterval_dispatcher : p.closeInterval.dispatcher = p.dispatcher := rfl
@[simp] theorem Part.closeInterval_arbiter : p.closeInterval.arbiter = p.arbiter := rfl
@[simp] theorem Part.closeInterval_sluice : p.closeInterval.sluice = p.sluice := rfl
@[simp] theorem Part.closeInterval_cleaner : p.closeInterval.cleaner = p.cleaner := rfl
@[simp] theorem Part.closeInterval_plan : p.closeInterval.plan = p.plan := rfl
@[simp] theorem Part.closeInterval_supervision : p.closeInterval.supervision = p.supervision := rfl
@[simp] theorem Part.closeInterval_accounting : p.closeInterval.accounting = p.accounting := rfl
@[simp] theorem Part.closeInterval_link : p.closeInterval.link = p.link := rfl
@[simp] theorem Part.closeInterval_events : p.closeInterval.events = p.events := rfl
@[simp] theorem Part.closeInterval_store : p.closeInterval.store = p.store := rfl
@[simp] theorem Part.closeInterval_config : p.closeInterval.config = p.config := rfl
@[simp] theorem Part.closeInterval_roundDue : p.closeInterval.roundDue = p.roundDue := rfl
@[simp] theorem Part.closeInterval_freeCount : p.closeInterval.freeCount = p.freeCount := rfl
end closeInterval

section countSecond
variable (p : Part)
@[simp] theorem Part.countSecond_gauge : p.countSecond.gauge = p.gauge := rfl
@[simp] theorem Part.countSecond_curves : p.countSecond.curves = p.curves := rfl
@[simp] theorem Part.countSecond_fallbackInUse : p.countSecond.fallbackInUse = p.fallbackInUse := rfl
@[simp] theorem Part.countSecond_units : p.countSecond.units = p.units := rfl
@[simp] theorem Part.countSecond_dispatcher : p.countSecond.dispatcher = p.dispatcher := rfl
@[simp] theorem Part.countSecond_arbiter : p.countSecond.arbiter = p.arbiter := rfl
@[simp] theorem Part.countSecond_sluice : p.countSecond.sluice = p.sluice := rfl
@[simp] theorem Part.countSecond_cleaner : p.countSecond.cleaner = p.cleaner := rfl
@[simp] theorem Part.countSecond_plan : p.countSecond.plan = p.plan := rfl
@[simp] theorem Part.countSecond_supervision : p.countSecond.supervision = p.supervision := rfl
@[simp] theorem Part.countSecond_link : p.countSecond.link = p.link := rfl
@[simp] theorem Part.countSecond_events : p.countSecond.events = p.events := rfl
@[simp] theorem Part.countSecond_store : p.countSecond.store = p.store := rfl
@[simp] theorem Part.countSecond_config : p.countSecond.config = p.config := rfl
@[simp] theorem Part.countSecond_roundDue : p.countSecond.roundDue = p.roundDue := rfl
@[simp] theorem Part.countSecond_freeCount : p.countSecond.freeCount = p.freeCount := rfl
end countSecond

section updateAlert
variable (p : Part)
@[simp] theorem Part.updateAlert_gauge : p.updateAlert.gauge = p.gauge := rfl
@[simp] theorem Part.updateAlert_curves : p.updateAlert.curves = p.curves := rfl
@[simp] theorem Part.updateAlert_fallbackInUse : p.updateAlert.fallbackInUse = p.fallbackInUse := rfl
@[simp] theorem Part.updateAlert_units : p.updateAlert.units = p.units := rfl
@[simp] theorem Part.updateAlert_estimator : p.updateAlert.estimator = p.estimator := rfl
@[simp] theorem Part.updateAlert_dispatcher : p.updateAlert.dispatcher = p.dispatcher := rfl
@[simp] theorem Part.updateAlert_arbiter : p.updateAlert.arbiter = p.arbiter := rfl
@[simp] theorem Part.updateAlert_sluice : p.updateAlert.sluice = p.sluice := rfl
@[simp] theorem Part.updateAlert_cleaner : p.updateAlert.cleaner = p.cleaner := rfl
@[simp] theorem Part.updateAlert_plan : p.updateAlert.plan = p.plan := rfl
@[simp] theorem Part.updateAlert_supervision : p.updateAlert.supervision = p.supervision := rfl
@[simp] theorem Part.updateAlert_accounting : p.updateAlert.accounting = p.accounting := rfl
@[simp] theorem Part.updateAlert_link : p.updateAlert.link = p.link := rfl
@[simp] theorem Part.updateAlert_store : p.updateAlert.store = p.store := rfl
@[simp] theorem Part.updateAlert_config : p.updateAlert.config = p.config := rfl
@[simp] theorem Part.updateAlert_roundDue : p.updateAlert.roundDue = p.roundDue := rfl
@[simp] theorem Part.updateAlert_freeCount : p.updateAlert.freeCount = p.freeCount := rfl
end updateAlert

section allAuto
variable (p : Part)
@[simp] theorem Part.allAuto_gauge : p.allAuto.gauge = p.gauge := rfl
@[simp] theorem Part.allAuto_curves : p.allAuto.curves = p.curves := rfl
@[simp] theorem Part.allAuto_fallbackInUse : p.allAuto.fallbackInUse = p.fallbackInUse := rfl
@[simp] theorem Part.allAuto_estimator : p.allAuto.estimator = p.estimator := rfl
@[simp] theorem Part.allAuto_dispatcher : p.allAuto.dispatcher = p.dispatcher := rfl
@[simp] theorem Part.allAuto_arbiter : p.allAuto.arbiter = p.arbiter := rfl
@[simp] theorem Part.allAuto_sluice : p.allAuto.sluice = p.sluice := rfl
@[simp] theorem Part.allAuto_cleaner : p.allAuto.cleaner = p.cleaner := rfl
@[simp] theorem Part.allAuto_plan : p.allAuto.plan = p.plan := rfl
@[simp] theorem Part.allAuto_supervision : p.allAuto.supervision = p.supervision := rfl
@[simp] theorem Part.allAuto_accounting : p.allAuto.accounting = p.accounting := rfl
@[simp] theorem Part.allAuto_link : p.allAuto.link = p.link := rfl
@[simp] theorem Part.allAuto_events : p.allAuto.events = p.events := rfl
@[simp] theorem Part.allAuto_store : p.allAuto.store = p.store := rfl
@[simp] theorem Part.allAuto_config : p.allAuto.config = p.config := rfl
@[simp] theorem Part.allAuto_roundDue : p.allAuto.roundDue = p.roundDue := rfl
@[simp] theorem Part.allAuto_freeCount : p.allAuto.freeCount = p.freeCount := rfl
end allAuto

section zeroLoads
variable (p : Part)
@[simp] theorem Part.zeroLoads_gauge : p.zeroLoads.gauge = p.gauge := rfl
@[simp] theorem Part.zeroLoads_curves : p.zeroLoads.curves = p.curves := rfl
@[simp] theorem Part.zeroLoads_fallbackInUse : p.zeroLoads.fallbackInUse = p.fallbackInUse := rfl
@[simp] theorem Part.zeroLoads_estimator : p.zeroLoads.estimator = p.estimator := rfl
@[simp] theorem Part.zeroLoads_dispatcher : p.zeroLoads.dispatcher = p.dispatcher := rfl
@[simp] theorem Part.zeroLoads_arbiter : p.zeroLoads.arbiter = p.arbiter := rfl
@[simp] theorem Part.zeroLoads_sluice : p.zeroLoads.sluice = p.sluice := rfl
@[simp] theorem Part.zeroLoads_cleaner : p.zeroLoads.cleaner = p.cleaner := rfl
@[simp] theorem Part.zeroLoads_plan : p.zeroLoads.plan = p.plan := rfl
@[simp] theorem Part.zeroLoads_supervision : p.zeroLoads.supervision = p.supervision := rfl
@[simp] theorem Part.zeroLoads_accounting : p.zeroLoads.accounting = p.accounting := rfl
@[simp] theorem Part.zeroLoads_link : p.zeroLoads.link = p.link := rfl
@[simp] theorem Part.zeroLoads_events : p.zeroLoads.events = p.events := rfl
@[simp] theorem Part.zeroLoads_store : p.zeroLoads.store = p.store := rfl
@[simp] theorem Part.zeroLoads_config : p.zeroLoads.config = p.config := rfl
@[simp] theorem Part.zeroLoads_roundDue : p.zeroLoads.roundDue = p.roundDue := rfl
@[simp] theorem Part.zeroLoads_freeCount : p.zeroLoads.freeCount = p.freeCount := rfl
end zeroLoads

section beginSave
variable (p : Part)
@[simp] theorem Part.beginSave_gauge : p.beginSave.gauge = p.gauge := rfl
@[simp] theorem Part.beginSave_curves : p.beginSave.curves = p.curves := rfl
@[simp] theorem Part.beginSave_fallbackInUse : p.beginSave.fallbackInUse = p.fallbackInUse := rfl
@[simp] theorem Part.beginSave_units : p.beginSave.units = p.units := rfl
@[simp] theorem Part.beginSave_estimator : p.beginSave.estimator = p.estimator := rfl
@[simp] theorem Part.beginSave_dispatcher : p.beginSave.dispatcher = p.dispatcher := rfl
@[simp] theorem Part.beginSave_arbiter : p.beginSave.arbiter = p.arbiter := rfl
@[simp] theorem Part.beginSave_sluice : p.beginSave.sluice = p.sluice := rfl
@[simp] theorem Part.beginSave_cleaner : p.beginSave.cleaner = p.cleaner := rfl
@[simp] theorem Part.beginSave_plan : p.beginSave.plan = p.plan := rfl
@[simp] theorem Part.beginSave_supervision : p.beginSave.supervision = p.supervision := rfl
@[simp] theorem Part.beginSave_accounting : p.beginSave.accounting = p.accounting := rfl
@[simp] theorem Part.beginSave_link : p.beginSave.link = p.link := rfl
@[simp] theorem Part.beginSave_events : p.beginSave.events = p.events := rfl
@[simp] theorem Part.beginSave_config : p.beginSave.config = p.config := rfl
@[simp] theorem Part.beginSave_roundDue : p.beginSave.roundDue = p.roundDue := rfl
@[simp] theorem Part.beginSave_freeCount : p.beginSave.freeCount = p.freeCount := rfl
end beginSave

/-! ### The unit controllers after an update of units -/

/-- A unit after a change of one unit. -/
theorem Part.unit_modUnit (p : Part) (u v : UnitNo) (f : PumpUnit → PumpUnit) :
    (p.modUnit u f).unit v = if v = u then f (p.unit u) else p.unit v := by
  simp only [Part.unit, Part.modUnit, Six.get_set]

@[simp] theorem Part.unit_modUnit_self (p : Part) (u : UnitNo) (f : PumpUnit → PumpUnit) :
    (p.modUnit u f).unit u = f (p.unit u) := by
  simp [Part.unit_modUnit]

@[simp] theorem Part.unit_enterUnit_self (p : Part) (u : UnitNo) (st : UnitState) :
    (p.enterUnit u st).unit u = (p.unit u).enter (p.unitRecord u).outlet st := by
  simp [Part.enterUnit]

theorem Part.unit_enterUnit (p : Part) (u v : UnitNo) (st : UnitState) :
    (p.enterUnit u st).unit v
      = if v = u then (p.unit u).enter (p.unitRecord u).outlet st else p.unit v := by
  simp [Part.enterUnit, Part.unit_modUnit]

/-- Equal units records give equal readings of a unit. -/
theorem Part.unit_of_units {p q : Part} (h : q.units = p.units) (u : UnitNo) : q.unit u = p.unit u := by
  simp only [Part.unit, h]

/-- Equal configurations give equal unit records. -/
theorem Part.unitRecord_of_config {p q : Part} (h : q.config = p.config) (u : UnitNo) :
    q.unitRecord u = p.unitRecord u := by
  simp only [Part.unitRecord, h]

/-- A command with a part function answers the next state with that part. -/
@[simp] theorem State.act_eq (s : State) (f : Part → Part) :
    s.act f = .next { s with part := f s.part } := rfl

end Sys2Proof.Machine
end

