-- ==== Sys2Proof/Laws/Moves.lean ====
section
/-! SUPPORT. The moves that the operations of unit controllers and start arbiter are made of: a relation that is a
preorder and holds of each move holds of every operation, so one structure stands for one lemma per operation. -/

namespace Sys2Proof.Machine

/-- While the stagger timer runs, a grant check changes nothing (R101, R102). -/
theorem grantCheck_of_staggerRunning {p : Part} (h : p.arbiter.stagger.isSome = true) : p.grantCheck = p := by
  cases hs : p.arbiter.stagger with
  | none => simp [hs] at h
  | some _ => simp [Part.grantCheck, Part.stationReady, hs]

/-- In NORMAL no shed ends (R116). -/
theorem shedOver_of_normal {p : Part} (h : p.arbiter.shed = .normal) : p.shedOver = p := by
  simp [Part.shedOver, h]

/-- In NORMAL with the stagger running a fall of committed load takes its new sum and nothing else (R107). -/
theorem loadsFell_of_staggerRunning {p : Part} (h : p.arbiter.stagger.isSome = true) (n : p.arbiter.shed = .normal) :
    p.loadsFell = p.sumLoads := by
  unfold Part.loadsFell
  split
  · have e : p.sumLoads.shedOver = p.sumLoads := shedOver_of_normal n
    rw [e, grantCheck_of_staggerRunning (p := p.sumLoads) h]
  · rfl

/-- A timer that was stopped or left alone. -/
def timerKept (old new : Option Timer) : Prop := new = old ∨ new = none

/-- A change of a unit controller that moves neither its state nor its lines nor its authority, starts no timer and
lengthens no history. -/
structure QuietChange (f : PumpUnit → PumpUnit) : Prop where
  state : ∀ pu, (f pu).state = pu.state
  authority : ∀ pu, (f pu).authority = pu.authority
  startOut : ∀ pu, (f pu).startOut = pu.startOut
  primeOut : ∀ pu, (f pu).primeOut = pu.primeOut
  airvalveOut : ∀ pu, (f pu).airvalveOut = pu.airvalveOut
  run : ∀ pu, (f pu).run = pu.run
  trip : ∀ pu, (f pu).trip = pu.trip
  primed : ∀ pu, (f pu).primed = pu.primed
  history : ∀ pu, (f pu).history.length ≤ pu.history.length
  primeTimer : ∀ pu, timerKept pu.primeTimer (f pu).primeTimer
  startTimer : ∀ pu, timerKept pu.startTimer (f pu).startTimer
  stopTimer : ∀ pu, timerKept pu.stopTimer (f pu).stopTimer
  minRunTimer : ∀ pu, timerKept pu.minRunTimer (f pu).minRunTimer
  restTimer : ∀ pu, timerKept pu.restTimer (f pu).restTimer
  runLossTimer : ∀ pu, timerKept pu.runLossTimer (f pu).runLossTimer
  dwellTimer : ∀ pu, timerKept pu.dwellTimer (f pu).dwellTimer

/-- A preorder that holds of every move of units, start arbiter and event queue. -/
structure UnitMoves (R : Part → Part → Prop) : Prop where
  refl : ∀ p, R p p
  trans : ∀ {p q r}, R p q → R q r → R p r
  arbiter : ∀ (p : Part) (a : Arbiter), a.effective = p.arbiter.effective →
    a.curtail = p.arbiter.curtail → R p { p with arbiter := a }
  record : ∀ (p : Part) c u v, R p (p.record c u v)
  roundDue : ∀ (p : Part) b, R p { p with roundDue := b }
  enter : ∀ (p : Part) u st, R p (p.enterUnit u st)
  starting : ∀ (p : Part) u, R p (p.enterStarting u)
  priming : ∀ (p : Part) u n, R p ((p.enterUnit u .priming).modUnit u fun pu =>
    { pu with primeTimer := p.startTimer n })
  resting : ∀ (p : Part) u, R p (p.enterResting u)
  stopping : ∀ (p : Part) u, R p (p.enterStopping u)
  quiet : ∀ (p : Part) u {f : PumpUnit → PumpUnit}, QuietChange f → R p (p.modUnit u f)

namespace UnitMoves

variable {R : Part → Part → Prop} (h : UnitMoves R)

include h

theorem setReserved (p : Part) (u : UnitNo) (kw : Nat) : R p (p.setReserved u kw) := by
  apply h.quiet
  constructor <;> intro pu <;> first | rfl | exact le_rfl | exact .inl rfl

theorem setQueue (p : Part) (q : List QueueEntry) : R p (p.setQueue q) := h.arbiter p _ rfl rfl

theorem dropEntry (p : Part) (u : UnitNo) : R p (p.dropEntry u) := h.setQueue p _

theorem committed (p : Part) (n : Nat) : R p { p with arbiter.committed := n } := h.arbiter p _ rfl rfl

theorem freeSlot (p : Part) (u : UnitNo) : R p (p.freeSlot u) := by
  unfold Part.freeSlot
  split
  · exact h.arbiter p _ rfl rfl
  · exact h.refl p

theorem takeGrant (p : Part) (u : UnitNo) : R p (p.takeGrant u) := by
  have k : R p (p.modUnit u fun pu =>
      { pu with lastGrant := some p.accounting.uptime, minRunElapsed := false }) := by
    apply h.quiet
    constructor <;> intro pu <;> first | rfl | exact le_rfl | exact .inl rfl
  unfold Part.takeGrant
  simp only
  split
  · exact h.trans k (h.priming _ u _)
  · exact h.trans k (h.starting _ u)

theorem consult (p : Part) (u : UnitNo) (own : Bool) : R p (p.consult u own) := by
  have k : R p (p.modUnit u fun pu => { pu with history := p.historyNow u }) := by
    have e : (p.modUnit u fun pu => { pu with history := p.historyNow u })
        = p.modUnit u fun pu => { pu with history := prunedHistory p.accounting.uptime pu.history } := rfl
    rw [e]
    apply h.quiet
    constructor <;> intro pu <;> first | rfl | exact List.length_filter_le _ _ | exact .inl rfl
  have l : ∀ (q : Part) (b : Bool), R q (q.modUnit u fun pu => { pu with limitReported := b }) := by
    intro q b
    apply h.quiet
    constructor <;> intro pu <;> first | rfl | exact le_rfl | exact .inl rfl
  unfold Part.consult
  simp only
  split
  · exact h.trans k (l _ false)
  · split
    · exact h.trans (h.trans k (l _ true)) (h.record _ _ _ _)
    · exact k

theorem tripUnit (p : Part) (u : UnitNo) (f : FaultCode) : R p (p.tripUnit u f) := by
  refine h.trans (h.enter p u .tripped) ?_
  apply h.quiet
  constructor <;> intro pu <;> first | rfl | exact le_rfl | exact .inl rfl

theorem joinQueue (p : Part) (u : UnitNo) (o : QueueOrigin) : R p (p.joinQueue u o) :=
  h.trans (h.trans (h.setQueue p _) (h.enter _ u _)) (h.roundDue _ true)

theorem sumLoads (p : Part) : R p p.sumLoads := h.committed p _

theorem restOver (p : Part) (u : UnitNo) : R p (p.restOver u) := by
  have k : R p (p.modUnit u fun pu => { pu with retryPending := false, restTimer := none }) := by
    apply h.quiet
    constructor <;> intro pu <;> first | rfl | exact le_rfl | exact .inl rfl | exact .inr rfl
  unfold Part.restOver
  split
  · simp only
    split
    · exact h.trans (h.trans k (h.consult _ u true)) (h.joinQueue _ u _)
    · exact h.trans (h.trans k (h.consult _ u true)) (h.enter _ u _)
  · exact h.enter p u _

theorem startFailed (p : Part) (u : UnitNo) (c : EventCode) (f : FaultCode) : R p (p.startFailed u c f) := by
  have r : ∀ (q : Part) (n : Nat),
      R q (q.modUnit u fun pu => { pu with retriesLeft := n, retryPending := true }) := by
    intro q n
    apply h.quiet
    constructor <;> intro pu <;> first | rfl | exact le_rfl | exact .inl rfl
  have k := h.trans (h.trans (h.setReserved p u 0) (h.freeSlot _ u))
    (h.record _ c (some u) (some (((p.unit u).retriesLeft - 1 : Nat) : Int)))
  unfold Part.startFailed
  simp only
  split
  · exact h.trans (h.trans (h.trans k (r _ _)) (h.resting _ u)) (h.record _ _ _ _)
  · exact h.trans k (h.tripUnit _ u _)

theorem failAtGrant (p : Part) (u : UnitNo) (c : EventCode) (f : FaultCode) : R p (p.failAtGrant u c f) := by
  have k := h.trans (h.startFailed p u c f) (h.sumLoads _)
  unfold Part.failAtGrant
  simp only
  split
  · exact h.trans k (h.restOver _ u)
  · exact k

theorem startIfZero (p : Part) (u : UnitNo) : R p (p.startIfZero u) := by
  unfold Part.startIfZero
  split
  · split
    · exact h.failAtGrant p u _ _
    · exact h.refl p
  · split
    · exact h.failAtGrant p u _ _
    · exact h.refl p
  all_goals exact h.refl p

theorem grant (p : Part) (u : UnitNo) : R p (p.grant u) := by
  unfold Part.grant
  simp only
  refine h.trans ?_ (h.startIfZero _ u)
  refine h.trans ?_ (h.takeGrant _ u)
  refine h.trans ?_ (h.sumLoads _)
  exact h.trans (h.arbiter p { p.arbiter with slot := some u } rfl rfl) (h.setReserved _ u (p.power u))

theorem grantFrom (q : List QueueEntry) (p : Part) : R p (grantFrom q p) := by
  induction q generalizing p with
  | nil => exact h.refl p
  | cons e rest ih =>
    unfold Machine.grantFrom
    split
    · exact h.trans (h.trans (h.trans (h.setQueue p rest) (h.enter _ _ _)) (h.record _ _ _ _)) (ih _)
    · split
      · exact h.trans (h.setQueue p rest) (h.grant _ _)
      · exact h.refl p

theorem grantCheck (p : Part) : R p p.grantCheck := by
  unfold Part.grantCheck
  split
  · exact h.grantFrom _ p
  · exact h.refl p

theorem enqueue (p : Part) (u : UnitNo) (o : QueueOrigin) : R p (p.enqueue u o) := by
  unfold Part.enqueue
  split
  · exact h.trans (h.joinQueue p u o) (h.grantCheck _)
  · exact h.refl p

theorem checkIf (p : Part) (b : Bool) : R p (p.checkIf b) := by
  unfold Part.checkIf
  split
  · exact h.grantCheck p
  · exact h.refl p

theorem idleUnits (q : List QueueEntry) (p : Part) : R p (idleUnits q p) := by
  induction q generalizing p with
  | nil => exact h.refl p
  | cons e rest ih => exact h.trans (h.enter p _ _) (ih _)

theorem emptyQueue (p : Part) : R p p.emptyQueue := h.trans (h.setQueue p []) (h.idleUnits _ _)

theorem shedOver (p : Part) : R p p.shedOver := by
  unfold Part.shedOver
  split
  · exact h.arbiter p _ rfl rfl
  · exact h.refl p

theorem loadsFell (p : Part) : R p p.loadsFell := by
  unfold Part.loadsFell
  split
  · exact h.trans (h.trans (h.sumLoads p) (h.shedOver _)) (h.grantCheck _)
  · exact h.sumLoads p

theorem endRest (p : Part) (u : UnitNo) : R p (p.endRest u) := h.trans (h.restOver p u) (h.checkIf _ _)

theorem restIfZero (p : Part) (u : UnitNo) : R p (p.restIfZero u) := by
  unfold Part.restIfZero
  split
  · exact h.endRest p u
  · exact h.refl p

/-- The stop origin of a unit set or cleared. -/
theorem stopOrigin (p : Part) (u : UnitNo) (o : Option StopOrigin) :
    R p (p.modUnit u fun pu => { pu with stopOrigin := o }) := by
  apply h.quiet
  constructor <;> intro pu <;> first | rfl | exact le_rfl | exact .inl rfl

theorem stopFails (p : Part) (u : UnitNo) : R p (p.stopFails u) :=
  h.trans (h.trans (h.tripUnit p u _) (h.record _ _ _ _)) (h.stopOrigin _ u none)

theorem stopIfZero (p : Part) (u : UnitNo) : R p (p.stopIfZero u) := by
  unfold Part.stopIfZero
  split
  · exact h.stopFails p u
  · exact h.refl p

theorem stopEnded (p : Part) (u : UnitNo) : R p (p.stopEnded u) := by
  have k : R p (((p.setReserved u 0).record .unitStopped (some u)
      ((p.unit u).stopOrigin.map fun o => (o.code : Int))).modUnit u fun pu =>
        { pu with stopOrigin := none }) :=
    h.trans (h.trans (h.setReserved p u 0) (h.record _ _ _ _)) (h.stopOrigin _ u none)
  unfold Part.stopEnded
  simp only
  split
  · exact h.trans k (h.enter _ u _)
  · split
    · exact h.trans k (h.enter _ u _)
    · exact h.trans (h.trans k (h.resting _ u)) (h.restIfZero _ u)

theorem endStop (p : Part) (u : UnitNo) : R p (p.endStop u) := h.trans (h.stopEnded p u) (h.loadsFell _)

theorem takeStop (p : Part) (u : UnitNo) (o : StopOrigin) : R p (p.takeStop u o) := by
  unfold Part.takeStop
  simp only
  have k1 : R p (if (p.unit u).inStart then p.freeSlot u else p) := by
    split
    · exact h.freeSlot p u
    · exact h.refl p
  generalize (if (p.unit u).inStart then p.freeSlot u else p) = p1 at k1 ⊢
  have k2 : R p (if o = .mains then p1.setReserved u 0 else p1) := by
    split
    · exact h.trans k1 (h.setReserved _ u 0)
    · exact k1
  generalize (if o = .mains then p1.setReserved u 0 else p1) = p2 at k2 ⊢
  have k3 := h.trans k2 (h.stopOrigin p2 u (some o))
  split
  · exact h.trans (h.trans (h.trans k3 (h.stopping _ u)) (h.stopIfZero _ u)) (h.loadsFell _)
  · exact h.trans k3 (h.endStop _ u)

theorem stopOrder (p : Part) (u : UnitNo) (o : StopOrigin) : R p (p.stopOrder u o) := by
  unfold Part.stopOrder
  split
  · exact h.takeStop p u o
  · exact h.refl p

theorem stopAll (o : StopOrigin) (us : List UnitNo) (p : Part) : R p (stopAll o us p) := by
  induction us generalizing p with
  | nil => exact h.refl p
  | cons u us ih =>
    unfold Machine.stopAll
    split
    · exact h.trans (h.stopOrder p u o) (ih _)
    · exact ih p

theorem failStart (p : Part) (u : UnitNo) (c : EventCode) (f : FaultCode) : R p (p.failStart u c f) := by
  have k := h.trans (h.startFailed p u c f) (h.loadsFell _)
  unfold Part.failStart
  simp only
  split
  · exact h.trans k (h.restIfZero _ u)
  · exact k

theorem shedOne (p : Part) : R p p.shedOne := by
  unfold Part.shedOne
  split
  · exact h.trans (h.record p _ _ _) (h.stopOrder _ _ _)
  · exact h.refl p

theorem startShedDelay (p : Part) : R p p.startShedDelay := h.arbiter p _ rfl rfl

theorem shedTest (p : Part) : R p p.shedTest := by
  unfold Part.shedTest
  split
  · exact h.trans (h.trans (h.arbiter p { p.arbiter with shed := .shedding } rfl rfl)
      (h.startShedDelay _)) (h.shedOne _)
  · exact h.refl p

theorem loadsMoved (p : Part) : R p p.loadsMoved := by
  unfold Part.loadsMoved
  split
  · exact h.trans (h.sumLoads p) (h.shedTest _)
  · exact h.loadsFell p

theorem budgetMoved (p : Part) (old : Nat) : R p (p.budgetMoved old) := by
  unfold Part.budgetMoved
  split
  · exact h.trans (h.shedOver p) (h.grantCheck _)
  · split
    · exact h.shedTest p
    · exact h.refl p

theorem reestimateUnits (us : List UnitNo) (p : Part) : R p (reestimateUnits us p) := by
  induction us generalizing p with
  | nil => exact h.refl p
  | cons u us ih =>
    unfold Machine.reestimateUnits Part.reestimateUnit
    split
    · exact h.trans (h.setReserved p u _) (ih _)
    · exact ih p

theorem reestimate (p : Part) : R p p.reestimate :=
  h.trans (h.reestimateUnits _ p) (h.loadsMoved _)

theorem consultEnqueue (p : Part) (u : UnitNo) (o : QueueOrigin) : R p (p.consultEnqueue u o) := by
  unfold Part.consultEnqueue
  split
  · exact h.trans (h.consult p u false) (h.enqueue _ u o)
  · exact h.consult p u false

theorem enqueueAll (us : List UnitNo) (p : Part) : R p (enqueueAll us p) := by
  induction us generalizing p with
  | nil => exact h.refl p
  | cons u us ih =>
    unfold Machine.enqueueAll
    split
    · exact h.trans (h.consultEnqueue p u _) (ih _)
    · exact ih p

theorem enqueueFirst (us : List UnitNo) (p : Part) : R p (enqueueFirst us p) := by
  induction us generalizing p with
  | nil => exact h.refl p
  | cons u us ih =>
    unfold Machine.enqueueFirst
    split
    · split
      · exact h.consultEnqueue p u _
      · exact h.trans (h.consult p u false) (ih _)
    · exact ih p

theorem stopSome (p : Part) (u : Option UnitNo) (o : StopOrigin) : R p (p.stopSome u o) := by
  unfold Part.stopSome
  split
  · exact h.stopOrder p _ o
  · exact h.refl p

theorem withdrawAll (p : Part) : R p p.withdrawAll :=
  h.trans (h.trans (h.setQueue p _) (h.idleUnits _ _)) (h.checkIf _ _)

theorem withdrawNewest (p : Part) : R p p.withdrawNewest := by
  unfold Part.withdrawNewest
  split
  · exact h.trans (h.trans (h.dropEntry p _) (h.enter _ _ _)) (h.checkIf _ _)
  · exact h.refl p

theorem drawdownStage (p : Part) : R p p.drawdownStage := h.trans (h.withdrawAll p) (h.stopSome _ _ _)

theorem restartWalk (us : List UnitNo) (n : Nat) (p : Part) : R p (restartWalk us n p).1 := by
  induction us generalizing n p with
  | nil => exact h.refl p
  | cons u us ih =>
    unfold Machine.restartWalk
    split
    · exact h.trans (h.consultEnqueue p u _) (ih _ _)
    · exact ih _ _

/-- The acts of a protection, but for the hold it sets (R88, R89). -/
theorem protectActs (p : Part) : R p (Machine.stopAll .lowWater UnitNo.all p).emptyQueue :=
  h.trans (h.stopAll _ _ p) (h.emptyQueue _)

theorem dwellExpired (p : Part) (u : UnitNo) : R p (p.dwellExpired u) := by
  have k : R p (p.modUnit u fun pu => { pu with dwellTimer := none }) := by
    apply h.quiet
    constructor <;> intro pu <;> first | rfl | exact le_rfl | exact .inl rfl | exact .inr rfl
  exact h.trans (h.trans k (h.record _ _ _ _)) (h.stopOrder _ u _)

theorem uncommandedRun (p : Part) (u : UnitNo) : R p (p.uncommandedRun u) := by
  have k : ∀ q : Part, R q (q.modUnit u fun pu => { pu with retryPending := false }) := by
    intro q
    apply h.quiet
    constructor <;> intro pu <;> first | rfl | exact le_rfl | exact .inl rfl
  exact h.trans (h.trans (h.trans (h.trans (h.trans (h.trans (h.trans (h.dropEntry p u) (h.freeSlot _ u))
    (h.tripUnit _ u _)) (k _)) (h.record _ _ _ _)) (h.checkIf _ _)) (h.setReserved _ u _)) (h.loadsMoved _)

theorem motorTrip (p : Part) (u : UnitNo) : R p (p.motorTrip u) := by
  have k : ∀ q : Part, R q (q.modUnit u fun pu =>
      { pu with
        retryPending := false
        stopOrigin := none }) := by
    intro q
    apply h.quiet
    constructor <;> intro pu <;> first | rfl | exact le_rfl | exact .inl rfl
  have m := fun v => h.trans (h.trans (h.trans (h.trans (h.dropEntry p u) (h.freeSlot _ u))
    (h.tripUnit _ u .motorTrip)) (k _)) (h.record _ .motorTrip (some u) v)
  unfold Part.motorTrip
  simp only
  split
  · exact h.trans (h.trans (m _) (h.checkIf _ _)) (h.loadsFell _)
  · exact h.trans (h.trans (h.trans (m _) (h.checkIf _ _)) (h.setReserved _ u 0)) (h.loadsFell _)

theorem tripOn (p : Part) (u : UnitNo) : R p (p.tripOn u) := by
  unfold Part.tripOn
  split
  · exact h.record _ _ _ _
  · exact h.record _ _ _ _
  all_goals exact h.motorTrip p u

theorem primedOn (p : Part) (u : UnitNo) : R p (p.primedOn u) := by
  unfold Part.primedOn
  split
  · split
    · exact h.trans (h.starting p u) (h.failStart _ u _ _)
    · exact h.starting p u
  all_goals exact h.refl p

end UnitMoves

end Sys2Proof.Machine
end

