-- ==== Sys2Proof/Laws/PartMoves.lean ====
section
/-! SUPPORT. The moves that every command is made of, but for receiving, replying and the resets: a preorder that holds
of each holds of every command. A move of a block carries what the move keeps of that block, so that an invariant of
one block is proved from the moves of that block alone. -/

namespace Sys2Proof.Machine

/-- A preorder that holds of every move a command is made of. -/
structure PartMoves (R : Part → Part → Prop) : Prop extends UnitMoves R where
  runLine : ∀ (p : Part) u b, R p (p.modUnit u fun pu => { pu with run := b })
  tripLine : ∀ (p : Part) u b, R p (p.modUnit u fun pu => { pu with trip := b })
  primedLine : ∀ (p : Part) u b, R p (p.modUnit u fun pu => { pu with primed := b })
  authority : ∀ (p : Part) u a, R p (p.modUnit u fun pu => { pu with authority := a })
  allAuto : ∀ p : Part, R p p.allAuto
  zeroLoads : ∀ p : Part, R p p.zeroLoads
  running : ∀ (p : Part) u, R p ((p.enterUnit u .running).modUnit u fun pu =>
    { pu with
      minRunTimer := if (p.unitRecord u).minRun = 0 then none else p.startTimer (p.unitRecord u).minRun
      minRunElapsed := pu.minRunElapsed || (p.unitRecord u).minRun == 0
      retriesLeft := (p.unitRecord u).startRetries })
  runLoss : ∀ (p : Part) u t, (p.unit u).state = .running →
    R p (p.modUnit u fun pu => { pu with runLossTimer := t })
  dwell : ∀ (p : Part) u t, (p.unit u).state = .running →
    R p (p.modUnit u fun pu => { pu with dwellTimer := t })
  gauge : ∀ (p : Part) g, R p { p with gauge := g }
  curves : ∀ (p : Part) c f, R p { p with curves := c, fallbackInUse := f }
  dispatcher : ∀ (p : Part) d, R p { p with dispatcher := d }
  freeCount : ∀ (p : Part) n, R p { p with freeCount := n }
  budget : ∀ (p : Part) n b, R p { p with arbiter.effective := n, arbiter.curtail := b }
  store : ∀ (p : Part) s, R p { p with store := s }
  sluice : ∀ (p : Part) g m,
    (p.SluiceFollows → { p with sluice := g, estimator.closedThroughout := m }.SluiceFollows) →
    R p { p with sluice := g, estimator.closedThroughout := m }
  estimator : ∀ (p : Part) e, (e.closedThroughout = true → p.estimator.closedThroughout = true ∨ p.sluiceClosed = true) →
    (p.estimator.ring.length ≤ 16 → e.ring.length ≤ 16) → R p { p with estimator := e }
  cleaner : ∀ (p : Part) c, (p.CleanerFollows → { p with cleaner := c }.CleanerFollows) →
    R p { p with cleaner := c }
  supervision : ∀ (p : Part) v, (p.MainsFollows → { p with supervision := v }.MainsFollows) →
    R p { p with supervision := v }
  planClock : ∀ (p : Part) l a, (p.PlanOrdered → { p with plan := l, accounting := a }.PlanOrdered) →
    R p { p with plan := l, accounting := a }
  linkAside : ∀ (p : Part) f a, R p { p with link.flags := f, link.after := a }
  events : ∀ (p : Part) e, (p.AlertFollows → { p with events := e }.AlertFollows) →
    R p { p with events := e }
  config : ∀ (p : Part) c e,
    (∀ u, (c.units.get u).outlet = (p.config.units.get u).outlet ∨ (p.unit u).state = .offline) →
    (p.AlertFollows → { p with config := c, events := e }.AlertFollows) →
    R p { p with config := c, events := e }

namespace PartMoves

variable {R : Part → Part → Prop} (h : PartMoves R)

include h

/-! ### Budget -/

theorem formBudget (p : Part) : R p p.formBudget := h.budget p _ p.arbiter.curtail

theorem reformBudget (p : Part) : R p p.reformBudget :=
  h.trans (h.formBudget p) (h.toUnitMoves.budgetMoved _ _)

theorem curtailMoved (p : Part) (b : Bool) (c : EventCode) : R p (p.curtailMoved b c) := by
  unfold Part.curtailMoved
  simp only
  exact h.trans (h.trans (h.trans (h.budget p p.arbiter.effective b) (h.formBudget _)) (h.record _ _ _ _))
    (h.toUnitMoves.budgetMoved _ _)

/-! ### Protections, evaluation -/

theorem hold (p : Part) (b : Bool) : R p { p with dispatcher.hold := b } := h.dispatcher p _

theorem formRanking (p : Part) : R p p.formRanking := h.dispatcher p _

theorem protect (p : Part) : R p p.protect := h.trans (h.toUnitMoves.protectActs p) (h.hold _ true)

theorem stopLevelProtection (p : Part) (l : Int) : R p (p.stopLevelProtection l) := by
  unfold Part.stopLevelProtection
  split
  · exact h.protect p
  · exact h.trans (h.protect p) (h.record _ _ _ _)

theorem clearHold (p : Part) : R p p.clearHold :=
  h.trans (h.hold p false) (h.toUnitMoves.grantCheck _)

theorem dispatchAtSnapshot (p : Part) (snap : Snapshot) : R p (p.dispatchAtSnapshot snap) := by
  unfold Part.dispatchAtSnapshot
  split
  · exact h.stopLevelProtection p _
  · split
    · exact h.clearHold p
    · exact h.refl p

theorem floatHighForwarded (p : Part) : R p p.floatHighForwarded := by
  unfold Part.floatHighForwarded
  split
  · exact h.record _ _ _ _
  · split
    · exact h.refl p
    · exact h.trans (h.formRanking p) (h.toUnitMoves.enqueueAll _ _)

theorem demandStage (p : Part) (snap : Snapshot) (l : Int) : R p (p.demandStage snap l) := by
  unfold Part.demandStage
  simp only
  split
  · exact h.trans (h.dispatcher p _) (h.toUnitMoves.enqueueFirst _ _)
  · split
    · exact h.trans (h.dispatcher p _) (h.toUnitMoves.withdrawNewest _)
    · exact h.trans (h.dispatcher p _) (h.toUnitMoves.stopSome _ _ _)

theorem levelStages (p : Part) (snap : Snapshot) (l : Int) : R p (p.levelStages snap l) := by
  unfold Part.levelStages
  split
  · exact h.toUnitMoves.enqueueAll _ _
  · split
    · exact h.toUnitMoves.drawdownStage p
    · exact h.demandStage p snap l

theorem openStages (p : Part) (snap : Snapshot) : R p (p.openStages snap) := by
  unfold Part.openStages
  split
  · exact h.toUnitMoves.stopSome _ _ _
  · split
    · split
      · exact h.toUnitMoves.enqueueAll _ _
      · exact h.refl p
    · exact h.levelStages p snap _

theorem stages (p : Part) : R p p.stages := by
  unfold Part.stages
  split
  · exact h.toUnitMoves.reestimate p
  · split
    · exact h.trans (h.toUnitMoves.reestimate p) (h.openStages _ _)
    · exact h.toUnitMoves.reestimate p

theorem startEvaluation (p : Part) : R p p.startEvaluation := h.dispatcher p _

/-! ### Sluice and cleaner -/

theorem testArrival (p : Part) : R p p.testArrival := by
  unfold Part.testArrival
  split
  · split
    · refine h.trans (h.sluice p _ false ?_) (h.record _ _ _ _)
      rename_i hs _
      rintro ⟨a, b, c, d⟩
      simp_all [Part.SluiceFollows, Part.sluiceTo]
    · exact h.refl p
  · split
    · refine h.trans (h.sluice p _ p.estimator.closedThroughout ?_) (h.record _ _ _ _)
      rintro ⟨a, b, c, d⟩
      simp_all [Part.SluiceFollows, Part.sluiceTo]
    · exact h.refl p
  all_goals exact h.refl p

theorem closeGate (p : Part) (c : CloseCause) : R p (p.closeGate c) := by
  unfold Part.closeGate
  simp only
  refine h.trans ?_ (h.testArrival _)
  split
  · refine h.sluice p _ false ?_
    rintro ⟨a, b, c, d⟩
    simp_all [Part.SluiceFollows, Part.sluiceTo, Part.startTimer]
  · refine h.sluice p _ false ?_
    rintro ⟨a, b, c, d⟩
    simp_all [Part.SluiceFollows, Part.sluiceTo]

theorem openGate (p : Part) : R p p.openGate := by
  unfold Part.openGate
  refine h.trans ?_ (h.testArrival _)
  refine h.sluice p _ false ?_
  rintro ⟨a, b, c, d⟩
  simp_all [Part.SluiceFollows, Part.startTimer]

theorem sluiceAtSnapshot (p : Part) (snap : Snapshot) : R p (p.sluiceAtSnapshot snap) := by
  unfold Part.sluiceAtSnapshot
  split
  · split
    · exact h.openGate p
    · exact h.refl p
  · split
    · exact h.closeGate p _
    · exact h.refl p
  · split
    · exact h.closeGate p _
    · exact h.refl p
  all_goals exact h.refl p

theorem driveClosed (p : Part) (hs : p.sluice.state = .closing) : R p p.driveClosed := by
  refine h.sluice p _ p.estimator.closedThroughout ?_
  rintro ⟨a, b, c, d⟩
  simp_all [Part.SluiceFollows, Part.startTimer]

theorem waitForMains (p : Part) (hs : p.sluice.state = .closing) : R p p.waitForMains := by
  refine h.sluice p _ p.estimator.closedThroughout ?_
  rintro ⟨a, b, c, d⟩
  simp_all [Part.SluiceFollows]

theorem sluiceMainsLost (p : Part) : R p p.sluiceMainsLost := by
  unfold Part.sluiceMainsLost
  split
  · exact h.closeGate p _
  · split
    · exact h.refl p
    · exact h.waitForMains p (by assumption)
  all_goals exact h.refl p

theorem sluiceMainsOk (p : Part) : R p p.sluiceMainsOk := by
  unfold Part.sluiceMainsOk
  split
  · rename_i hc
    simp only [Bool.and_eq_true, beq_iff_eq] at hc
    exact h.driveClosed p hc.1
  · exact h.refl p

/-- A limit line's filtered level. -/
theorem limitLines (p : Part) (a b : Bool) : R p { p with sluice.atOpen := a, sluice.atClosed := b } :=
  h.sluice p _ p.estimator.closedThroughout fun k => k

theorem sluiceMode (p : Part) (m : SluiceMode) : R p { p with sluice.mode := m } :=
  h.sluice p _ p.estimator.closedThroughout fun k => k

theorem limitMoved (p : Part) (b : Bool) : R p (p.limitMoved b) := by
  unfold Part.limitMoved
  split
  · exact h.trans (h.record _ _ _ _) (h.closeGate _ _)
  · exact h.testArrival p

theorem startRake (p : Part) (c : RakeCause) : R p (p.startRake c) := by
  refine h.cleaner p _ ?_
  intro
  simp [Part.CleanerFollows, Part.startTimer]

theorem cleanerIdle (p : Part) : R p p.cleanerIdle := by
  refine h.cleaner p _ ?_
  intro
  simp [Part.CleanerFollows]

theorem cleanerAtSnapshot (p : Part) (snap : Snapshot) : R p (p.cleanerAtSnapshot snap) := by
  unfold Part.cleanerAtSnapshot
  split
  · exact h.startRake p _
  · exact h.refl p

theorem cleanerMainsLost (p : Part) : R p p.cleanerMainsLost := by
  unfold Part.cleanerMainsLost
  split
  · exact h.cleanerIdle p
  · exact h.refl p

/-! ### The round -/

theorem recordSome (p : Part) (e : Option (EventCode × Option Int)) : R p (p.recordSome e) := by
  unfold Part.recordSome
  split
  · exact h.record _ _ _ _
  · exact h.refl p

theorem formSnapshot (p : Part) : R p p.formSnapshot := by
  unfold Part.formSnapshot
  exact h.trans (h.trans (h.trans (h.gauge p _) (h.recordSome _ _)) (h.recordSome _ _)) (h.recordSome _ _)

theorem unitAtSnapshot (p : Part) (snap : Snapshot) (u : UnitNo) : R p (p.unitAtSnapshot snap u) := by
  unfold Part.unitAtSnapshot
  split
  · rename_i hs
    have k := h.dwell p u (p.dwellAfter u snap) (by simpa using hs)
    simp only
    split
    · exact h.trans k (h.toUnitMoves.dwellExpired _ u)
    · exact k
  · exact h.refl p

theorem unitsAtSnapshot (snap : Snapshot) (us : List UnitNo) (p : Part) :
    R p (unitsAtSnapshot snap us p) := by
  induction us generalizing p with
  | nil => exact h.refl p
  | cons u us ih => exact h.trans (h.unitAtSnapshot p snap u) (ih _)

theorem rackCleared (p : Part) (old new : RackState) : R p (p.rackCleared old new) := by
  unfold Part.rackCleared
  split
  · exact h.toUnitMoves.grantCheck p
  · exact h.refl p

theorem blocksAct (p : Part) (old : RackState) (snap : Snapshot) : R p (p.blocksAct old snap) := by
  unfold Part.blocksAct
  exact h.trans (h.trans (h.trans (h.trans (h.trans (h.curves p _ _) (h.rackCleared _ _ _))
    (h.dispatchAtSnapshot _ snap)) (h.sluiceAtSnapshot _ snap)) (h.cleanerAtSnapshot _ snap))
    (h.unitsAtSnapshot snap _ _)

theorem decideMode (p : Part) (snap : Snapshot) : R p (p.decideMode snap) :=
  h.trans (h.gauge p _) (h.roundDue _ false)

theorem round (p : Part) (cur : Currents) : R p (p.round cur) := by
  unfold Part.round
  simp only
  exact h.trans (h.trans (h.trans (h.gauge p _) (h.formSnapshot _)) (h.blocksAct _ _ _)) (h.decideMode _ _)

theorem immediateRound (p : Part) (cur : Currents) : R p (p.immediateRound cur) := by
  unfold Part.immediateRound
  exact h.trans (h.trans (h.roundDue p false) (h.gauge _ _)) (h.round _ cur)

theorem takeDueRound (p : Part) (cur : Currents) : R p (p.takeDueRound cur) := by
  unfold Part.takeDueRound
  split
  · exact h.immediateRound p cur
  · exact h.refl p

theorem takeUnseenRound (p : Part) : R p p.takeUnseenRound := by
  unfold Part.takeUnseenRound
  split
  · exact h.trans (h.freeCount p _) (h.immediateRound _ _)
  · exact h.refl p

theorem floatHighOn (p : Part) : R p p.floatHighOn := by
  unfold Part.floatHighOn
  simp only
  split
  · exact h.trans (h.gauge p _) (h.record _ _ _ _)
  · exact h.trans (h.trans (h.gauge p _) (h.record _ _ _ _)) (h.floatHighForwarded _)

theorem floatLowOn (p : Part) : R p p.floatLowOn := by
  have k := h.trans (h.gauge p _) (h.record (p.setFloats p.gauge.floatHigh true) .floatLow none none)
  unfold Part.floatLowOn
  simp only
  split
  · exact h.trans (h.trans k (h.record _ _ _ _)) (h.protect _)
  · exact h.trans k (h.protect _)

theorem floatLowOff (p : Part) : R p p.floatLowOff := by
  unfold Part.floatLowOff
  simp only
  split
  · exact h.trans (h.trans (h.gauge p _) (h.record _ _ _ _)) (h.floatHighForwarded _)
  · exact h.gauge p _

/-! ### Unit rows -/

theorem startEnds (p : Part) (u : UnitNo) : R p (p.startEnds u) := by
  unfold Part.startEnds
  simp only
  exact h.trans (h.trans (h.running p u) (h.record _ _ _ _)) (h.toUnitMoves.freeSlot _ u)

theorem runOn (p : Part) (u : UnitNo) : R p (p.runOn u) := by
  unfold Part.runOn
  split
  · exact h.toUnitMoves.uncommandedRun p u
  · exact h.toUnitMoves.uncommandedRun p u
  · exact h.toUnitMoves.uncommandedRun p u
  · exact h.toUnitMoves.uncommandedRun p u
  · exact h.toUnitMoves.uncommandedRun p u
  · exact h.startEnds p u
  · split
    · exact h.trans (h.trans (h.runLoss p u none (by assumption)) (h.toUnitMoves.setReserved _ u _))
        (h.toUnitMoves.loadsMoved _)
    · exact h.refl p
  · exact h.refl p
  · exact h.trans (h.toUnitMoves.setReserved _ u _) (h.toUnitMoves.loadsMoved _)

theorem runLost (p : Part) (u : UnitNo) : R p (p.runLost u) :=
  h.trans (h.toUnitMoves.tripUnit p u _) (h.record _ _ _ _)

theorem runLostIfZero (p : Part) (u : UnitNo) : R p (p.runLostIfZero u) := by
  unfold Part.runLostIfZero
  split
  · exact h.runLost p u
  · exact h.refl p

theorem runOff (p : Part) (u : UnitNo) : R p (p.runOff u) := by
  unfold Part.runOff
  split
  · exact h.trans (h.trans (h.trans (h.runLoss p u _ (by assumption)) (h.toUnitMoves.setReserved _ u _))
      (h.runLostIfZero _ u)) (h.toUnitMoves.loadsFell _)
  · exact h.toUnitMoves.endStop p u
  · exact h.trans (h.toUnitMoves.setReserved _ u _) (h.toUnitMoves.loadsFell _)
  all_goals exact h.refl p

/-- A change of a unit controller that is a quiet change but for its authority. -/
theorem setAuthority (p : Part) (u : UnitNo) (a : Authority) : R p (p.setAuthority u a) := h.authority p u a

theorem setEnabled (p : Part) (u : UnitNo) (b : Bool) : R p (p.setEnabled u b) := by
  let r := { p.config.units.get u with enabled := b }
  refine h.config p { p.config with units := p.config.units.set u r } p.events ?_ fun k => k
  intro v
  left
  by_cases e : v = u
  · subst e; simp [r]
  · simp [Six.get_set, e]

theorem leaveRestartSet (p : Part) (u : UnitNo) : R p (p.leaveRestartSet u) :=
  h.supervision p _ fun k => k

theorem disabled (p : Part) (u : UnitNo) : R p (p.disabled u) := by
  have k : ∀ q : Part, R q (q.modUnit u fun pu =>
      { pu with
        retryPending := false
        fault := none
        stopOrigin := none }) := by
    intro q
    apply h.quiet
    constructor <;> intro pu <;> first | rfl | exact le_rfl | exact .inl rfl
  exact h.trans (h.trans (h.trans (h.trans (h.trans (h.toUnitMoves.dropEntry p u) (k _))
    (h.setEnabled _ u false)) (h.enter _ u _)) (h.leaveRestartSet _ u)) (h.toUnitMoves.checkIf _ _)

theorem handStopped (p : Part) (u : UnitNo) : R p (p.handStopped u) := by
  unfold Part.handStopped
  split
  · exact h.trans (h.trans (h.toUnitMoves.dropEntry p u) (h.enter _ u _)) (h.toUnitMoves.checkIf _ _)
  · exact h.toUnitMoves.stopOrder p u _
  · exact h.toUnitMoves.stopOrder p u _
  · exact h.toUnitMoves.stopOrder p u _
  · apply h.quiet
    constructor <;> intro pu <;> first | rfl | exact le_rfl | exact .inl rfl
  all_goals exact h.refl p

theorem cleared (p : Part) (u : UnitNo) : R p (p.cleared u) := by
  have k : R p (p.modUnit u fun pu =>
      { pu with
        fault := none
        retriesLeft := (p.unitRecord u).startRetries }) := by
    apply h.quiet
    constructor <;> intro pu <;> first | rfl | exact le_rfl | exact .inl rfl
  unfold Part.cleared
  simp only
  split
  · exact h.trans (h.trans (h.trans k (h.record _ _ _ _)) (h.resting _ u)) (h.toUnitMoves.restIfZero _ u)
  · exact h.trans (h.trans k (h.record _ _ _ _)) (h.enter _ u _)

/-! ### Plan -/

theorem applyTarget (p : Part) (t : Int) (b : Nat) : R p (p.applyTarget t b) :=
  h.planClock p _ p.accounting fun k => k

theorem applyFallback (p : Part) : R p p.applyFallback := h.planClock p _ p.accounting fun k => k

theorem recordActivation (p : Part) (n : Nat) : R p (p.recordActivation n) := by
  have k : R p (if 1 < n then p.record .planSkipped none (some ((n - 1 : Nat) : Int)) else p) := by
    split
    · exact h.record _ _ _ _
    · exact h.refl p
  unfold Part.recordActivation
  simp only
  split
  · exact h.trans (h.trans k (h.record _ _ _ _)) (h.record _ _ _ _)
  · exact h.trans k (h.record _ _ _ _)

omit h in
/-- In a plan in time order, what is left once the due entries have left is later than the clock. -/
theorem later_of_dropWhile (clock : Word32) (es : List PlanEntry)
    (hs : es.Pairwise fun a b => a.time.toNat < b.time.toNat) :
    ∀ e ∈ es.dropWhile (PlanEntry.due clock), clock.toNat < e.time.toNat := by
  induction es with
  | nil => simp
  | cons a es ih =>
    rw [List.pairwise_cons] at hs
    by_cases d : a.due clock = true
    · rw [List.dropWhile_cons_of_pos d]
      exact ih hs.2
    · rw [List.dropWhile_cons_of_neg d]
      have l : clock.toNat < a.time.toNat := by
        simp only [PlanEntry.due, decide_eq_true_eq, not_le] at d
        exact d
      intro e he
      rcases List.mem_cons.mp he with rfl | he
      · exact l
      · exact l.trans (hs.1 e he)

omit h in
/-- The plan is in order after an activation at a clock value, whatever the clock was before. -/
theorem planOrdered_activated (p : Part) (l : LevelPlan) (a : Accounting)
    (he : l.entries = p.plan.entries.dropWhile (PlanEntry.due a.clock))
    (hst : l.planState = .empty ↔ l.entries = []) (k : p.PlanOrdered) :
    { p with plan := l, accounting := a }.PlanOrdered := by
  obtain ⟨k1, k2, k3, k4⟩ := k
  refine ⟨?_, ?_, ?_, hst⟩
  · show l.entries.length ≤ 32
    rw [he]
    exact ((List.dropWhile_suffix _).length_le).trans k1
  · show l.entries.Pairwise _
    rw [he]
    exact k2.sublist (List.dropWhile_suffix _).sublist
  · show ∀ e ∈ l.entries, _
    rw [he]
    exact later_of_dropWhile _ _ k2

omit h in
/-- Where no entry is due, none leaves. -/
theorem dropWhile_of_noneDue (clock : Word32) (es : List PlanEntry)
    (hn : (es.takeWhile (PlanEntry.due clock)).getLast? = none) :
    es = es.dropWhile (PlanEntry.due clock) := by
  have t := List.takeWhile_append_dropWhile (p := PlanEntry.due clock) (l := es)
  rw [List.getLast?_eq_none_iff] at hn
  rw [hn] at t
  exact t.symm

/-- An activation at a new clock value: the clock moves, the interval volume may, and the due entries leave. -/
theorem activateAt (p : Part) (a : Accounting) (v : Nat) :
    R p { p with accounting := a, estimator.intervalVolume := v }.activate := by
  have est : ∀ q : Part, R q { q with estimator.intervalVolume := v } := fun q =>
    h.estimator q { q.estimator with intervalVolume := v } (fun k => .inl k) fun k => k
  unfold Part.activate
  split
  · rename_i hn
    refine h.trans (h.planClock p p.plan a fun k => ?_) (est _)
    exact planOrdered_activated p p.plan a (dropWhile_of_noneDue _ _ hn) k.2.2.2 k
  · rename_i newest hs
    refine h.trans (h.trans ?_ (h.recordActivation _ _)) (h.reformBudget _)
    let q := ({ p with accounting := a, estimator.intervalVolume := v }.applyEntry newest).setEntries
      (p.plan.entries.dropWhile (PlanEntry.due a.clock))
    refine h.trans (h.planClock p q.plan a fun k => ?_) (est _)
    refine planOrdered_activated p q.plan a rfl ?_ k
    show (if (p.plan.entries.dropWhile (PlanEntry.due a.clock)).isEmpty then PlanState.empty else .waiting)
      = .empty ↔ p.plan.entries.dropWhile (PlanEntry.due a.clock) = []
    cases p.plan.entries.dropWhile (PlanEntry.due a.clock) <;> simp

theorem accountingSecond (p : Part) : R p p.countSecond.activate := h.activateAt p _ _

theorem setClock (p : Part) (c : Word32) : R p { p with accounting.clock := c }.activate :=
  h.activateAt p { p.accounting with clock := c } p.estimator.intervalVolume

/-! ### Supervision -/

theorem enterAutonomous (p : Part) : R p p.enterAutonomous := by
  unfold Part.enterAutonomous
  simp only
  exact h.trans (h.trans (h.trans (h.trans
    (h.supervision p
      { p.supervision with
        mode := .autonomous
        autonomousSince := some p.accounting.uptime
        timer := none } fun k => k)
    (h.allAuto _)) (h.applyFallback _)) (h.reformBudget _)) (h.record _ _ _ _)

theorem setMode (p : Part) (m : ControlMode) (c : EventCode) : R p (p.setMode m c) :=
  h.trans (h.supervision p { p.supervision with mode := m } fun k => k) (h.record _ _ _ _)

theorem mainsLost (p : Part) : R p { p with supervision.mainsOk := false }.mainsLoss := by
  unfold Part.mainsLoss
  simp only
  refine h.trans (h.trans (h.trans (h.trans (h.trans ?_ (h.toUnitMoves.stopAll _ _ _))
    (h.toUnitMoves.emptyQueue _)) (h.zeroLoads _)) (h.toUnitMoves.loadsFell _)) (h.record _ _ _ _)
  refine h.supervision p _ ?_
  intro
  simp [Part.MainsFollows]

theorem mainsBack (p : Part) : R p { p with supervision.mainsOk := true }.mainsBack := by
  unfold Part.mainsBack
  refine h.trans (h.supervision p _ ?_) (h.record _ _ _ _)
  intro
  simp [Part.MainsFollows, Part.startTimer]

theorem mainsOkAgain (p : Part) (hm : p.supervision.mains = .settling) : R p p.mainsOkAgain := by
  unfold Part.mainsOkAgain
  refine h.trans (h.trans (h.trans ?_ (h.toUnitMoves.reestimate _)) (h.sluiceMainsOk _))
    (h.toUnitMoves.grantCheck _)
  refine h.supervision p
    { p.supervision with
      mains := .ok
      settle := none } ?_
  rintro ⟨a, b⟩
  rw [hm] at a
  constructor
  · constructor
    · intro k; cases k
    · intro k; exact absurd (a.mpr k) (by decide)
  · simp

theorem restartBegun (p : Part) (n : Int) : R p (p.restartBegun n) :=
  h.trans (h.supervision p { p.supervision with restartSet := [] } fun k => k) (h.record _ _ _ _)

theorem restart (p : Part) (hm : p.supervision.mains = .settling) : R p p.restart := by
  unfold Part.restart
  simp only
  split
  · exact h.trans (h.mainsOkAgain p hm) (h.restartBegun _ _)
  · exact h.trans (h.trans (h.mainsOkAgain p hm) (h.toUnitMoves.restartWalk _ _ _)) (h.restartBegun _ _)

/-! ### Acceptance and the services of the requests -/

theorem resumeSupervision (p : Part) : R p p.resumeSupervision := by
  unfold Part.resumeSupervision
  split
  · simp only
    have since : ∀ q : Part, R q { q with supervision.autonomousSince := none } := fun q =>
      h.supervision q _ fun k => k
    refine h.trans ?_ (since _)
    exact h.trans (h.supervision p { p.supervision with mode := .supervised } fun k => k) (h.record _ _ _ _)
  · exact h.refl p

theorem restartSupervision (p : Part) : R p p.restartSupervision := h.supervision p _ fun k => k

theorem acceptTelegram (p : Part) : R p p.acceptTelegram :=
  h.trans (h.resumeSupervision p) (h.restartSupervision _)

theorem after (p : Part) (a : Option AfterReply) : R p { p with link.after := a } :=
  h.linkAside p p.link.flags a

theorem forUnit (n : Byte) {order : UnitNo → Part → Part × Response} (p : Part)
    (k : ∀ u, R p (order u p).1) : R p (forUnit n order p).1 := by
  unfold Machine.forUnit
  split
  · exact k _
  · exact h.refl p

theorem orderEnable (u : UnitNo) (p : Part) : R p (orderEnable u p).1 := by
  have k : ∀ q : Part, R q (q.modUnit u fun pu =>
      { pu with
        fault := none
        retriesLeft := (p.unitRecord u).startRetries
        retryPending := false }) := by
    intro q
    apply h.quiet
    constructor <;> intro pu <;> first | rfl | exact le_rfl | exact .inl rfl
  unfold Machine.orderEnable
  split
  · exact h.trans (h.trans (h.setEnabled p u true) (k _)) (h.enter _ u _)
  all_goals exact h.refl p

theorem orderDisable (u : UnitNo) (p : Part) : R p (orderDisable u p).1 := by
  unfold Machine.orderDisable
  split
  · exact h.disabled p u
  · exact h.refl p

theorem orderHandStart (u : UnitNo) (p : Part) : R p (orderHandStart u p).1 := by
  unfold Machine.orderHandStart
  split
  · exact h.refl p
  · split
    · exact h.trans (h.trans (h.toUnitMoves.consult p u false) (h.setAuthority _ u _))
        (h.toUnitMoves.enqueue _ u _)
    · exact h.toUnitMoves.consult p u false

theorem orderHandStop (u : UnitNo) (p : Part) : R p (orderHandStop u p).1 :=
  h.trans (h.trans (h.setAuthority p u .hand) (h.leaveRestartSet _ u)) (h.handStopped _ u)

theorem orderAuto (u : UnitNo) (p : Part) : R p (orderAuto u p).1 := h.setAuthority p u .auto

theorem orderClear (u : UnitNo) (p : Part) : R p (orderClear u p).1 := by
  unfold Machine.orderClear
  split
  · exact h.cleared p u
  · exact h.refl p

theorem orderAskUnit (u : UnitNo) (p : Part) : R p (orderAskUnit u p).1 := h.toUnitMoves.consult p u false

theorem serveUnitOrder (n a : Byte) (p : Part) : R p (serveUnitOrder n a p).1 := by
  unfold Machine.serveUnitOrder
  split
  · exact h.forUnit n p fun u => h.orderEnable u p
  · exact h.forUnit n p fun u => h.orderDisable u p
  · exact h.forUnit n p fun u => h.orderHandStart u p
  · exact h.forUnit n p fun u => h.orderHandStop u p
  · exact h.forUnit n p fun u => h.orderAuto u p
  · exact h.forUnit n p fun u => h.orderClear u p
  · exact h.refl p

theorem serveSluiceAuto (p : Part) : R p (serveSluiceAuto p).1 := h.sluiceMode p .auto

theorem serveSluiceKeepClosed (p : Part) : R p (serveSluiceKeepClosed p).1 := by
  unfold Machine.serveSluiceKeepClosed
  simp only
  split
  · exact h.trans (h.sluiceMode p _) (h.closeGate _ _)
  · exact h.trans (h.sluiceMode p _) (h.closeGate _ _)
  all_goals exact h.sluiceMode p _

theorem serveSluiceClear (p : Part) : R p (serveSluiceClear p).1 := by
  unfold Machine.serveSluiceClear
  split
  · exact h.closeGate p _
  all_goals exact h.refl p

theorem serveSluiceOrder (a : Byte) (p : Part) : R p (serveSluiceOrder a p).1 := by
  unfold Machine.serveSluiceOrder
  split
  · exact h.serveSluiceAuto p
  · exact h.serveSluiceKeepClosed p
  · exact h.serveSluiceClear p
  · exact h.refl p

theorem serveRakeStart (p : Part) : R p (serveRakeStart p).1 := by
  unfold Machine.serveRakeStart
  split
  · exact h.startRake p _
  · exact h.refl p

theorem serveRakeClear (p : Part) : R p (serveRakeClear p).1 := by
  unfold Machine.serveRakeClear
  split
  · exact h.cleanerIdle p
  all_goals exact h.refl p

theorem serveRakeOrder (a : Byte) (p : Part) : R p (serveRakeOrder a p).1 := by
  unfold Machine.serveRakeOrder
  split
  · exact h.serveRakeStart p
  · exact h.serveRakeClear p
  · exact h.refl p

theorem serveSetMode (a : Byte) (p : Part) : R p (serveSetMode a p).1 := by
  have hold : R p (serveHold p).1 := by
    unfold serveHold
    split
    · exact h.setMode p _ _
    all_goals exact h.refl p
  have release : R p (serveRelease p).1 := by
    unfold serveRelease
    split
    · exact h.setMode p _ _
    all_goals exact h.refl p
  unfold Machine.serveSetMode
  split
  · exact hold
  · exact release
  · exact h.refl p

theorem serveHold (p : Part) : R p (serveHold p).1 := h.serveSetMode 1#8 p

theorem serveRelease (p : Part) : R p (serveRelease p).1 := h.serveSetMode 2#8 p

omit h in
/-- A plan in order stays so with a later entry at its tail. -/
theorem planOrdered_append (p : Part) (e : PlanEntry) (hr : p.addRefusal e = none) (k : p.PlanOrdered) :
    (p.setEntries (p.plan.entries ++ [e])).PlanOrdered := by
  obtain ⟨k1, k2, k3, k4⟩ := k
  unfold Part.addRefusal at hr
  have t1 : p.accounting.clock.toNat < e.time.toNat := by
    by_contra c
    rw [if_pos (not_lt.mp c)] at hr
    cases hr
  rw [if_neg (not_le.mpr t1)] at hr
  have t2 : p.plan.entries.length + 1 ≤ 32 ∧ ∀ x ∈ p.plan.entries, x.time.toNat < e.time.toNat := by
    rcases List.eq_nil_or_concat p.plan.entries with hn | ⟨l, x, hx⟩
    · rw [hn]
      simp
    · rw [hx] at hr k1 k2 ⊢
      simp only [List.concat_eq_append, List.getLast?_append, List.getLast?_singleton, Option.some_or,
        List.length_append, List.length_cons, List.length_nil] at hr k1 k2 ⊢
      split at hr
      · cases hr
      · rename_i c
        split at hr
        · cases hr
        · refine ⟨by omega, ?_⟩
          rw [List.pairwise_append] at k2
          intro y hy
          rcases List.mem_append.mp hy with hy | hy
          · exact lt_trans (k2.2.2 y hy x (by simp)) (not_le.mp c)
          · simp only [List.mem_singleton] at hy
            subst hy
            exact not_le.mp c
  refine ⟨?_, ?_, ?_, ?_⟩
  · simpa [Part.setEntries] using t2.1
  · show (p.plan.entries ++ [e]).Pairwise _
    rw [List.pairwise_append]
    refine ⟨k2, by simp, ?_⟩
    intro x hx y hy
    simp only [List.mem_singleton] at hy
    subst hy
    exact t2.2 x hx
  · show ∀ x ∈ p.plan.entries ++ [e], _
    intro x hx
    rcases List.mem_append.mp hx with hx | hx
    · exact k3 x hx
    · simp only [List.mem_singleton] at hx
      subst hx
      exact t1
  · simp [Part.setEntries]

theorem servePlanAdd (w : PlanWords) (p : Part) : R p (servePlanAdd w p).1 := by
  unfold Machine.servePlanAdd
  split
  · exact h.refl p
  · rename_i hr
    exact h.planClock p (p.setEntries (p.plan.entries ++ [planEntryOf w])).plan p.accounting
      fun k => planOrdered_append p _ hr k

theorem servePlanClear (p : Part) : R p (servePlanClear p).1 := by
  have k : R p (p.setEntries []) := by
    refine h.planClock p (p.setEntries []).plan p.accounting fun k => ?_
    refine ⟨?_, ?_, ?_, ?_⟩ <;> simp [Part.setEntries]
  unfold Machine.servePlanClear
  simp only
  split
  · exact h.trans k (h.record _ _ _ _)
  · exact k

theorem serveAskPlan (n : Byte) (p : Part) : R p (serveAskPlan n p).1 := by
  unfold Machine.serveAskPlan
  split <;> exact h.refl p

theorem serveSetTarget (t b : Word16) (p : Part) : R p (serveSetTarget t b p).1 := h.applyTarget p _ _

theorem serveTakeEvents (n : Byte) (p : Part) : R p (serveTakeEvents n p).1 := by
  refine h.events p _ ?_
  rintro ⟨a, b⟩
  refine ⟨?_, b⟩
  show (p.events.records.drop (takeCount n)).length ≤ 48
  rw [List.length_drop]
  omega

theorem serveClearAlerts (m : Byte) (p : Part) : R p (serveClearAlerts m p).1 :=
  h.events p _ fun k => ⟨k.1, rfl⟩

theorem serveSetAlerts (m : Byte) (p : Part) : R p (serveSetAlerts m p).1 := by
  unfold Machine.serveSetAlerts
  simp only
  split
  · exact h.refl p
  · exact h.after p _

theorem serveZeroCounters (p : Part) : R p (serveZeroCounters p).1 :=
  h.planClock p p.plan _ fun k => k

theorem serveSetClock (c : Word32) (p : Part) : R p (serveSetClock c p).1 := h.setClock p c

/-! ### Configuration -/

/-- A change of the working copy that keeps outlets and enables. -/
theorem settings (p : Part) (c : WorkingCopy) (ho : c.units = p.config.units)
    (he : c.enables = p.config.enables) : R p { p with config := c } := by
  refine h.config p c p.events (fun u => .inl ?_) ?_
  · rw [ho]
  · rintro ⟨a, b⟩
    refine ⟨a, ?_⟩
    show p.events.alert = alertOf p.events.flags c.enables
    rw [he]
    exact b

theorem serveSetBudget (n : Word16) (p : Part) : R p (serveSetBudget n p).1 := by
  unfold Machine.serveSetBudget
  refine h.trans ?_ (h.reformBudget _)
  exact h.settings p _ rfl rfl

theorem estimatorFollows (p : Part) (old : StationRecord) : R p (p.estimatorFollows old) := by
  unfold Part.estimatorFollows
  split
  · exact h.refl p
  · exact h.estimator p _ (fun k => .inr k) fun _ => by simp [Part.freshEstimator]

theorem evaluationFollows (p : Part) (old : StationRecord) : R p (p.evaluationFollows old) := by
  unfold Part.evaluationFollows
  split
  · exact h.refl p
  · exact h.startEvaluation p

theorem supervisionFollows (p : Part) (old : StationRecord) : R p (p.supervisionFollows old) := by
  unfold Part.supervisionFollows
  split
  · exact h.refl p
  · exact h.restartSupervision p

theorem rakeFollows (p : Part) (old : StationRecord) : R p (p.rakeFollows old) := by
  unfold Part.rakeFollows
  split
  · exact h.refl p
  · exact h.cleaner p _ fun k => k

theorem writeStation (p : Part) (r : StationRecord) : R p (p.writeStation r) := by
  have k : R p { p with config.station := r, store.configured := true } :=
    h.trans (h.settings p { p.config with station := r } rfl rfl)
      (h.store _ { p.store with configured := true })
  unfold Part.writeStation
  exact h.trans (h.trans (h.trans (h.trans (h.trans k (h.estimatorFollows _ _)) (h.evaluationFollows _ _))
    (h.supervisionFollows _ _)) (h.rakeFollows _ _)) (h.reformBudget _)

theorem writeLink (p : Part) (l : LinkSettings) : R p (p.writeLink l) := by
  have k : R p { p with config.link := l } := h.settings p _ rfl rfl
  unfold Part.writeLink
  simp only
  split
  · exact k
  · exact h.trans k (h.after _ _)

theorem rackForcedClear (p : Part) : R p p.rackForcedClear := by
  unfold Part.rackForcedClear
  split
  · exact h.refl p
  · exact h.trans (h.trans (h.gauge p _) (h.record _ _ _ _)) (h.toUnitMoves.grantCheck _)

theorem writeGauge (p : Part) (c : ChannelName) (r : GaugeRecord) : R p (p.writeGauge c r) := by
  have k : R p
      { p with
        config.gauges := p.config.gauges.set c r
        gauge.channels := p.gauge.channels.set c (freshChannel r.fitted) } :=
    h.trans (h.settings p { p.config with gauges := p.config.gauges.set c r } rfl rfl) (h.gauge _ _)
  unfold Part.writeGauge
  simp only
  split
  · exact h.trans k (h.rackForcedClear _)
  · exact k

theorem writeUnit (p : Part) (u : UnitNo) (r : UnitRecord) (ho : (p.unit u).state = .offline) :
    R p (p.writeUnit u r) := by
  have k : R p { p with config.units := p.config.units.set u r } := by
    refine h.config p { p.config with units := p.config.units.set u r } p.events ?_ fun k => k
    intro v
    by_cases e : v = u
    · subst e; exact .inr ho
    · left; simp [Six.get_set, e]
  exact h.trans k (h.curves _ _ _)

theorem takeRecord (r : RecordName) (bs : List Byte) (p : Part) : R p (takeRecord r bs p).1 := by
  unfold Machine.takeRecord
  split
  · unfold takeLinkRecord
    split
    · exact h.writeLink p _
    · exact h.refl p
  · unfold takeStationRecord
    generalize clampStation (decodeStation bs) = r
    simp only
    split
    · exact h.writeStation p _
    · exact h.refl p
  · unfold takeGaugeRecord
    simp only
    split
    · exact h.refl p
    · exact h.writeGauge p _ _
  · unfold takeUnitRecord
    split
    · exact h.refl p
    · rename_i ho
      generalize decodeUnit bs = r
      simp only
      split
      · exact h.writeUnit p _ _ (by simpa using ho)
      · exact h.refl p

theorem serveWriteConfig (t i : Byte) (bs : List Byte) (p : Part) : R p (serveWriteConfig t i bs p).1 := by
  unfold Machine.serveWriteConfig Machine.writeRecord
  split
  · exact h.refl p
  · rename_i r _
    split
    · exact h.refl p
    · have k := h.takeRecord r bs p
      split
      · exact h.refl p
      · rename_i e
        rw [e] at k
        exact k

theorem serveAskConfig (t i : Byte) (p : Part) : R p (serveAskConfig t i p).1 := by
  unfold Machine.serveAskConfig
  split <;> exact h.refl p

theorem serveSaveConfig (p : Part) : R p (serveSaveConfig p).1 := by
  unfold Machine.serveSaveConfig
  split
  · exact h.refl p
  · split
    · exact h.store p _
    · exact h.refl p

theorem savePassed (p : Part) : R p p.savePassed := h.trans (h.store p _) (h.record _ _ _ _)

theorem saveFailed (p : Part) : R p p.saveFailed := by
  unfold Part.saveFailed
  split
  · exact h.store p _
  · refine h.trans ?_ (h.record _ _ _ _)
    exact h.trans (h.store p (p.store.ended .failed (Config.failedSaveImage p.freeCount)))
      (h.freeCount _ (p.freeCount + 1))

theorem serveRestartPart (p : Part) : R p (serveRestartPart p).1 := by
  unfold Machine.serveRestartPart
  split
  · exact h.refl p
  · exact h.after p _

theorem serveAskStation (p : Part) : R p (serveAskStation p).1 :=
  h.trans (h.linkAside p LinkFlags.none p.link.after) (h.freeCount _ _)

theorem serveAskGauges (cur : Currents) (p : Part) : R p (serveAskGauges cur p).1 :=
  h.immediateRound p cur

/-- Every service of a request is made of moves. -/
theorem serveKind (k : RequestKind) (body : List Byte) (cur : Currents) (p : Part) :
    R p (serveKind k body cur p).1 := by
  unfold Machine.serveKind
  split
  · exact h.serveAskStation p
  · exact h.serveAskGauges cur p
  · exact h.forUnit _ p fun u => h.orderAskUnit u p
  · exact h.serveAskPlan _ p
  · exact h.serveAskConfig _ _ p
  · exact h.refl p
  · exact h.serveTakeEvents _ p
  · exact h.serveSetTarget _ _ p
  · exact h.serveSetBudget _ p
  · exact h.serveSetClock _ p
  · exact h.serveSetMode _ p
  · exact h.serveSetAlerts _ p
  · exact h.serveClearAlerts _ p
  · exact h.serveUnitOrder _ _ p
  · exact h.serveSluiceOrder _ p
  · exact h.serveRakeOrder _ p
  · exact h.servePlanAdd _ p
  · exact h.servePlanClear p
  · exact h.serveWriteConfig _ _ _ p
  · exact h.serveSaveConfig p
  · exact h.serveZeroCounters p
  · exact h.serveRestartPart p

/-! ### The records and line acts of a reset -/

theorem announce (p : Part) (restart : Bool) : R p (p.announce restart) := by
  unfold Part.announce
  simp only
  split
  · exact h.record _ _ _ _
  · exact h.trans (h.record _ _ _ _) (h.record _ _ _ _)

theorem unitsAtReset (us : List UnitNo) (p : Part) : R p (unitsAtReset us p) := by
  induction us generalizing p with
  | nil => exact h.refl p
  | cons u us ih =>
    refine h.trans ?_ (ih _)
    unfold Part.unitAtReset
    split
    · exact h.trans (h.toUnitMoves.tripUnit p u _) (h.record _ _ _ _)
    · split
      · exact h.toUnitMoves.stopOrder p u _
      · exact h.refl p

theorem floatLowAtReset (p : Part) : R p p.floatLowAtReset := by
  unfold Part.floatLowAtReset
  split
  · exact h.trans (h.protect p) (h.record _ _ _ _)
  · exact h.refl p

/-- A reset goes from the blank part by moves. -/
theorem resetFromBlank (p : Part) (restart : Bool) (inp : FieldInputs) :
    R (p.blank restart inp.lines) (p.resetTo restart inp) :=
  h.trans (h.trans (h.trans (h.announce _ _) (h.unitsAtReset _ _)) (h.floatLowAtReset _)) (h.round _ _)

end PartMoves

end Sys2Proof.Machine
end

