-- ==== Sys2Proof/Laws/Commands.lean ====
section
/-! SUPPORT. Every command that `exec` answers is made of moves of the part; what a command answers; the step. -/

namespace Sys2Proof.Machine

/-- A command answers exactly its change of the part, the queue as it was. -/
theorem act_next (f : Part → Part) (s t : State) :
    s.act f = .next t ↔ t = s.withPart (f s.part) := by
  constructor
  · intro e
    injection e with e
    exact e.symm
  · intro e
    rw [e]
    rfl

/-- The relations that also hold of every change of the link controller and of a blank part are those that hold of
every command. -/
structure CommandMoves (R : Part → Part → Prop) : Prop extends PartMoves R where
  link : ∀ (p : Part) l, R p { p with link := l }
  blank : ∀ (p : Part) restart l, R p (p.blank restart l)

namespace CommandMoves

variable {R : Part → Part → Prop} (h : CommandMoves R)

include h

theorem modLink (p : Part) (f : Link → Link) : R p (p.modLink f) := h.link p _

theorem reply (p : Part) (k t : Byte) (r : Response) : R p (p.reply k t r) := h.link p _

theorem serve (p : Part) (k t : Byte) {f : Part → Part × Response} (hf : ∀ q, R q (f q).1) :
    R p (p.serve k t f) := by
  unfold Part.serve
  simp only
  exact h.trans (h.trans (h.trans (h.modLink p _) (h.toPartMoves.acceptTelegram _)) (hf _)) (h.reply _ _ _ _)

theorem request (k : RequestKind) (t : Byte) {f : Part → Part × Response} (hf : ∀ q, R q (f q).1) (p : Part) :
    R p (request k t f p) := by
  unfold Machine.request
  split
  · exact h.serve p _ t hf
  · exact h.modLink p _

theorem resetTo (p : Part) (restart : Bool) (inp : FieldInputs) : R p (p.resetTo restart inp) :=
  h.trans (h.blank p restart inp.lines) (h.toPartMoves.resetFromBlank p restart inp)

theorem replyEnds (p : Part) (inp : FieldInputs) : R p (p.replyEnds inp) := by
  unfold Part.replyEnds
  split
  · refine h.trans (h.modLink p Link.sent) ?_
    unfold Part.afterReply
    split
    · exact h.modLink _ _
    · refine h.config _ _ _ (fun u => .inl rfl) ?_
      intro k
      exact ⟨k.1, rfl⟩
    · exact h.resetTo _ _ _
  · exact h.modLink p _

theorem takeTelegram (p : Part) (bs : List Byte) (cur : Currents) : R p (p.takeTelegram bs cur) := by
  unfold Part.takeTelegram
  split
  · unfold Part.testTelegram
    split
    · exact h.serve p _ _ fun q => h.refl q
    · split
      · exact h.serve p _ _ fun q => h.toPartMoves.serveKind _ _ _ q
      · exact h.trans (h.modLink p _) (h.reply _ _ _ _)
  · exact h.modLink p _

theorem receiveByte (p : Part) (b : Byte) (cur : Currents) : R p (p.receiveByte b cur) := by
  unfold Part.receiveByte
  split
  · split
    · exact h.modLink p _
    · exact h.refl p
  · unfold Part.extendTelegram
    split
    · exact h.modLink p _
    · split
      · exact h.takeTelegram p _ cur
      · exact h.modLink p _
  · split
    · exact h.modLink p _
    · exact h.refl p
  · exact h.modLink p _
  · exact h.modLink p _

/-- What a command does to the part is made of moves. -/
theorem exec (c : Instr) (s t : State) (e : exec c s = .next t) : R s.part t.part := by
  have P := h.toPartMoves
  have U := h.toUnitMoves
  cases c <;> rw [Machine.exec] at e
  case powerOnReset inp =>
    rw [execPowerOnReset, act_next] at e; subst e; exact h.resetTo _ _ _
  case samplingRound cur => rw [execSamplingRound, act_next] at e; subst e; exact P.round _ _
  case runAsserted u =>
    rw [execRunAsserted, act_next] at e; subst e
    show R s.part (ite _ _ _)
    split
    · exact h.refl _
    · exact h.trans (h.trans (h.runLine _ u true) (P.runOn _ u)) (P.takeUnseenRound _)
  case runReleased u =>
    rw [execRunReleased, act_next] at e; subst e
    show R s.part (ite _ _ _)
    split
    · exact h.trans (h.trans (h.runLine _ u false) (P.runOff _ u)) (P.takeUnseenRound _)
    · exact h.refl _
  case tripAsserted u =>
    rw [execTripAsserted, act_next] at e; subst e
    show R s.part (ite _ _ _)
    split
    · exact h.refl _
    · exact h.trans (h.trans (h.tripLine _ u true) (U.tripOn _ u)) (P.takeUnseenRound _)
  case tripReleased u => rw [execTripReleased, act_next] at e; subst e; exact h.tripLine _ u false
  case primedAsserted u =>
    rw [execPrimedAsserted, act_next] at e; subst e
    show R s.part (ite _ _ _)
    split
    · exact h.refl _
    · exact h.trans (h.trans (h.primedLine _ u true) (U.primedOn _ u)) (P.takeUnseenRound _)
  case primedReleased u => rw [execPrimedReleased, act_next] at e; subst e; exact h.primedLine _ u false
  case primeTimerExpiry u cur =>
    rw [execPrimeTimerExpiry, act_next] at e; subst e
    show R s.part (ite _ _ _)
    split
    · exact h.trans (U.failStart _ u _ _) (P.takeDueRound _ cur)
    · exact h.refl _
  case startTimerExpiry u cur =>
    rw [execStartTimerExpiry, act_next] at e; subst e
    show R s.part (ite _ _ _)
    split
    · exact h.trans (U.failStart _ u _ _) (P.takeDueRound _ cur)
    · exact h.refl _
  case stopTimerExpiry u =>
    rw [execStopTimerExpiry, act_next] at e; subst e
    show R s.part (ite _ _ _)
    split
    · exact U.stopFails _ u
    · exact h.refl _
  case restTimerExpiry u cur =>
    rw [execRestTimerExpiry, act_next] at e; subst e
    show R s.part (ite _ _ _)
    split
    · exact h.trans (U.endRest _ u) (P.takeDueRound _ cur)
    · exact h.refl _
  case minRunTimerExpiry u =>
    rw [execMinRunTimerExpiry, act_next] at e; subst e
    show R s.part (ite _ _ _)
    split
    · apply h.quiet
      constructor <;> intro pu <;> first | rfl | exact le_rfl | exact .inl rfl | exact .inr rfl
    · exact h.refl _
  case runLossTimerExpiry u =>
    rw [execRunLossTimerExpiry, act_next] at e; subst e
    show R s.part (ite _ _ _)
    split
    · exact P.runLost _ u
    · exact h.refl _
  case dwellTimerExpiry u =>
    rw [execDwellTimerExpiry, act_next] at e; subst e
    show R s.part (ite _ _ _)
    split
    · exact h.trans (U.dwellExpired _ u) (P.takeUnseenRound _)
    · exact h.refl _
  case enable tag n =>
    rw [execEnable, act_next] at e; subst e
    exact h.request _ tag (fun q => P.forUnit n q fun u => P.orderEnable u q) _
  case disable tag n =>
    rw [execDisable, act_next] at e; subst e
    exact h.trans (h.request _ tag (fun q => P.forUnit n q fun u => P.orderDisable u q) _) (P.takeUnseenRound _)
  case handStart tag n cur =>
    rw [execHandStart, act_next] at e; subst e
    exact h.trans (h.request _ tag (fun q => P.forUnit n q fun u => P.orderHandStart u q) _)
      (P.takeDueRound _ cur)
  case handStop tag n =>
    rw [execHandStop, act_next] at e; subst e
    exact h.trans (h.request _ tag (fun q => P.forUnit n q fun u => P.orderHandStop u q) _) (P.takeUnseenRound _)
  case unitAuto tag n =>
    rw [execUnitAuto, act_next] at e; subst e
    exact h.request _ tag (fun q => P.forUnit n q fun u => P.orderAuto u q) _
  case unitClear tag n =>
    rw [execUnitClear, act_next] at e; subst e
    exact h.request _ tag (fun q => P.forUnit n q fun u => P.orderClear u q) _
  case askUnit tag n =>
    rw [execAskUnit, act_next] at e; subst e
    exact h.request _ tag (fun q => P.forUnit n q fun u => P.orderAskUnit u q) _
  case dispatchEvaluation cur =>
    rw [execDispatchEvaluation, act_next] at e; subst e
    exact h.trans (h.trans (h.trans (P.startEvaluation _) (P.formRanking _)) (P.stages _))
      (P.takeDueRound _ cur)
  case staggerTimerExpiry =>
    rw [execStaggerTimerExpiry, act_next] at e; subst e
    show R s.part (ite _ _ _)
    split
    · exact h.trans (h.trans (h.arbiter s.part { s.part.arbiter with stagger := none } rfl rfl)
        (U.grantCheck _)) (P.takeUnseenRound _)
    · exact h.refl _
  case shedDelayTimerExpiry =>
    rw [execShedDelayTimerExpiry, act_next] at e; subst e
    show R s.part (ite _ _ _)
    split
    · split
      · exact h.trans (h.trans (U.startShedDelay _) (U.shedOne _)) (P.takeUnseenRound _)
      · exact h.arbiter s.part _ rfl rfl
    · exact h.refl _
  case curtailAsserted =>
    rw [execCurtailAsserted, act_next] at e; subst e
    show R s.part (ite _ _ _)
    split
    · exact h.refl _
    · exact h.trans (P.curtailMoved _ _ _) (P.takeUnseenRound _)
  case curtailReleased =>
    rw [execCurtailReleased, act_next] at e; subst e
    show R s.part (ite _ _ _)
    split
    · exact h.trans (P.curtailMoved _ _ _) (P.takeUnseenRound _)
    · exact h.refl _
  case setBudget tag n =>
    rw [execSetBudget, act_next] at e; subst e
    exact h.trans (h.request _ tag (fun q => P.serveSetBudget n q) _) (P.takeUnseenRound _)
  case historyTimerExpiry =>
    rw [execHistoryTimerExpiry, act_next] at e; subst e
    refine h.estimator s.part _ (fun k => .inr ?_) fun k => ?_
    · unfold Estimator.updated at k
      split at k <;> exact k
    · have l : (appendRing s.part.estimator.ring s.part.historyRecord).length ≤ 16 := by
        unfold appendRing
        split
        · simp; omega
        · simp; omega
      unfold Estimator.updated
      split <;> exact l
  case accountingSecond =>
    rw [execAccountingSecond, act_next] at e; subst e; exact h.trans (P.accountingSecond _) (P.takeUnseenRound _)
  case floatHighAsserted cur =>
    rw [execFloatHighAsserted, act_next] at e; subst e
    show R s.part (ite _ _ _)
    split
    · exact h.refl _
    · exact h.trans (P.floatHighOn _) (P.immediateRound _ cur)
  case floatHighReleased cur =>
    rw [execFloatHighReleased, act_next] at e; subst e
    show R s.part (ite _ _ _)
    split
    · exact h.trans (h.gauge _ _) (P.immediateRound _ cur)
    · exact h.refl _
  case floatLowAsserted cur =>
    rw [execFloatLowAsserted, act_next] at e; subst e
    show R s.part (ite _ _ _)
    split
    · exact h.refl _
    · exact h.trans (P.floatLowOn _) (P.immediateRound _ cur)
  case floatLowReleased cur =>
    rw [execFloatLowReleased, act_next] at e; subst e
    show R s.part (ite _ _ _)
    split
    · exact h.trans (P.floatLowOff _) (P.immediateRound _ cur)
    · exact h.refl _
  case sluiceAtOpenAsserted =>
    rw [execSluiceAtOpenAsserted, act_next] at e; subst e
    show R s.part (ite _ _ _)
    split
    · exact h.refl _
    · exact h.trans (P.limitLines s.part true s.part.sluice.atClosed) (P.limitMoved _ _)
  case sluiceAtOpenReleased =>
    rw [execSluiceAtOpenReleased, act_next] at e; subst e
    show R s.part (ite _ _ _)
    split
    · exact h.trans (P.limitLines s.part false s.part.sluice.atClosed) (P.limitMoved _ _)
    · exact h.refl _
  case sluiceAtClosedAsserted =>
    rw [execSluiceAtClosedAsserted, act_next] at e; subst e
    show R s.part (ite _ _ _)
    split
    · exact h.refl _
    · exact h.trans (P.limitLines s.part s.part.sluice.atOpen true) (P.limitMoved _ _)
  case sluiceAtClosedReleased =>
    rw [execSluiceAtClosedReleased, act_next] at e; subst e
    show R s.part (ite _ _ _)
    split
    · exact h.trans (P.limitLines s.part s.part.sluice.atOpen false) (P.limitMoved _ _)
    · exact h.refl _
  case travelTimerExpiry =>
    rw [execTravelTimerExpiry, act_next] at e; subst e
    show R s.part (ite _ _ _)
    split
    · refine h.trans (h.sluice s.part _ false ?_) (h.record _ _ _ _)
      intro
      simp [Part.SluiceFollows, Part.sluiceTo]
    · exact h.refl _
  case sluiceAuto tag =>
    rw [execSluiceAuto, act_next] at e; subst e
    exact h.request _ tag (fun q => P.serveSluiceAuto q) _
  case sluiceKeepClosed tag =>
    rw [execSluiceKeepClosed, act_next] at e; subst e
    exact h.request _ tag (fun q => P.serveSluiceKeepClosed q) _
  case sluiceClear tag =>
    rw [execSluiceClear, act_next] at e; subst e
    exact h.request _ tag (fun q => P.serveSluiceClear q) _
  case rakeDoneAsserted =>
    rw [execRakeDoneAsserted, act_next] at e; subst e
    show R s.part (ite _ _ _)
    have k : R s.part { s.part with cleaner.done := true } := h.cleaner s.part _ fun k => k
    split
    · exact h.refl _
    · simp only
      split
      · refine h.trans (h.trans (h.trans k (P.cleanerIdle _)) ?_) (h.record _ _ _ _)
        refine h.cleaner _ _ fun k => k
      · exact k
  case rakeDoneReleased =>
    rw [execRakeDoneReleased, act_next] at e; subst e
    refine h.cleaner s.part _ fun k => k
  case rakingTimerExpiry =>
    rw [execRakingTimerExpiry, act_next] at e; subst e
    show R s.part (ite _ _ _)
    split
    · refine h.trans (h.cleaner s.part _ ?_) (h.record _ _ _ _)
      intro
      simp [Part.CleanerFollows]
    · exact h.refl _
  case intervalTimerExpiry =>
    rw [execIntervalTimerExpiry, act_next] at e; subst e
    show R s.part (ite _ _ _)
    split
    · split
      · exact P.startRake _ _
      · exact h.cleaner s.part _ fun k => k
    · exact h.refl _
  case pauseTimerExpiry =>
    rw [execPauseTimerExpiry, act_next] at e; subst e
    refine h.cleaner s.part _ fun k => k
  case rakeStart tag =>
    rw [execRakeStart, act_next] at e; subst e
    exact h.request _ tag (fun q => P.serveRakeStart q) _
  case rakeClear tag =>
    rw [execRakeClear, act_next] at e; subst e
    exact h.request _ tag (fun q => P.serveRakeClear q) _
  case setTarget tag a b =>
    rw [execSetTarget, act_next] at e; subst e
    exact h.request _ tag (fun q => P.serveSetTarget a b q) _
  case planAdd tag w =>
    rw [execPlanAdd, act_next] at e; subst e
    exact h.request _ tag (fun q => P.servePlanAdd w q) _
  case planClear tag =>
    rw [execPlanClear, act_next] at e; subst e
    exact h.request _ tag (fun q => P.servePlanClear q) _
  case askPlan tag n =>
    rw [execAskPlan, act_next] at e; subst e
    exact h.request _ tag (fun q => P.serveAskPlan n q) _
  case supervisionTimerExpiry =>
    rw [execSupervisionTimerExpiry, act_next] at e; subst e
    show R s.part (ite _ _ _)
    split
    · exact h.trans (P.enterAutonomous _) (P.takeUnseenRound _)
    · exact h.refl _
  case setModeHold tag =>
    rw [execSetModeHold, act_next] at e; subst e
    exact h.request _ tag (fun q => P.serveHold q) _
  case setModeRelease tag =>
    rw [execSetModeRelease, act_next] at e; subst e
    exact h.request _ tag (fun q => P.serveRelease q) _
  case mainsOkReleased cur =>
    rw [execMainsOkReleased, act_next] at e; subst e
    show R s.part (ite _ _ _)
    split
    · exact h.trans (h.trans (h.trans (P.mainsLost _) (P.sluiceMainsLost _)) (P.cleanerMainsLost _))
        (P.immediateRound _ cur)
    · exact h.refl _
  case mainsOkAsserted cur =>
    rw [execMainsOkAsserted, act_next] at e; subst e
    show R s.part (ite _ _ _)
    split
    · exact h.refl _
    · exact h.trans (P.mainsBack _) (P.immediateRound _ cur)
  case settleTimerExpiry cur =>
    rw [execSettleTimerExpiry, act_next] at e; subst e
    show R s.part (ite _ _ _)
    split
    · rename_i hm
      simp only [Bool.and_eq_true, beq_iff_eq] at hm
      exact h.trans (P.restart _ hm.1) (P.takeDueRound _ cur)
    · exact h.refl _
  case restartPart tag =>
    rw [execRestartPart, act_next] at e; subst e
    exact h.request _ tag (fun q => P.serveRestartPart q) _
  case askStation tag =>
    rw [execAskStation, act_next] at e; subst e
    exact h.request _ tag (fun q => P.serveAskStation q) _
  case askGauges tag cur =>
    rw [execAskGauges, act_next] at e; subst e
    exact h.request _ tag (fun q => P.serveAskGauges cur q) _
  case askCounters tag =>
    rw [execAskCounters, act_next] at e; subst e
    exact h.request _ tag (fun q => h.refl q) _
  case setClock tag n =>
    rw [execSetClock, act_next] at e; subst e
    exact h.trans (h.request _ tag (fun q => P.serveSetClock n q) _) (P.takeUnseenRound _)
  case zeroCounters tag =>
    rw [execZeroCounters, act_next] at e; subst e
    exact h.request _ tag (fun q => P.serveZeroCounters q) _
  case takeEvents tag n =>
    rw [execTakeEvents, act_next] at e; subst e
    exact h.request _ tag (fun q => P.serveTakeEvents n q) _
  case setAlerts tag n =>
    rw [execSetAlerts, act_next] at e; subst e
    exact h.request _ tag (fun q => P.serveSetAlerts n q) _
  case clearAlerts tag n =>
    rw [execClearAlerts, act_next] at e; subst e
    exact h.request _ tag (fun q => P.serveClearAlerts n q) _
  case writeConfigLink tag i bs =>
    rw [execWriteConfigLink, act_next] at e; subst e
    exact h.request _ tag (fun q => P.serveWriteConfig _ i bs q) _
  case writeConfigStation tag i bs =>
    rw [execWriteConfigStation, act_next] at e; subst e
    exact h.trans (h.request _ tag (fun q => P.serveWriteConfig _ i bs q) _) (P.takeUnseenRound _)
  case writeConfigGauge tag i bs =>
    rw [execWriteConfigGauge, act_next] at e; subst e
    exact h.trans (h.request _ tag (fun q => P.serveWriteConfig _ i bs q) _) (P.takeUnseenRound _)
  case writeConfigUnit tag i bs =>
    rw [execWriteConfigUnit, act_next] at e; subst e
    exact h.request _ tag (fun q => P.serveWriteConfig _ i bs q) _
  case askConfig tag a b =>
    rw [execAskConfig, act_next] at e; subst e
    exact h.request _ tag (fun q => P.serveAskConfig a b q) _
  case saveConfig tag =>
    rw [execSaveConfig, act_next] at e; subst e
    exact h.request _ tag (fun q => P.serveSaveConfig q) _
  case saveAttemptCompletion b =>
    rw [execSaveAttemptCompletion, act_next] at e; subst e
    show R s.part (match s.part.store.state with
      | .saving => if b then s.part.savePassed else s.part.saveFailed
      | .idle => s.part)
    split
    · split
      · exact P.savePassed _
      · exact P.saveFailed _
    · exact h.refl _
  case unknownKind tag k =>
    rw [execUnknownKind, act_next] at e; subst e
    show R s.part (ite _ _ _)
    split
    · exact h.serve _ _ _ fun q => h.refl q
    · exact h.modLink _ _
  case checkFailure => rw [execCheckFailure, act_next] at e; subst e; exact h.link _ _
  case oversize n => rw [execOversize, act_next] at e; subst e; exact h.link _ _
  case overrun => rw [execOverrun, act_next] at e; subst e; exact h.link _ _
  case gapTimerExpiry => rw [execGapTimerExpiry, act_next] at e; subst e; exact h.link _ _
  case replyEnd inp =>
    rw [execReplyEnd, act_next] at e; subst e
    show R s.part (ite _ _ _)
    split
    · exact h.replyEnds _ inp
    · exact h.refl _
  case byteReceived b cur =>
    rw [execByteReceived, act_next] at e; subst e
    exact h.trans (h.receiveByte _ b cur) (P.takeDueRound _ cur)
  case refusalLength tag k n =>
    rw [execRefusalLength, act_next] at e; subst e
    show R s.part (ite _ _ _)
    split
    · exact h.trans (h.modLink _ _) (h.reply _ _ _ _)
    · exact h.modLink _ _

end CommandMoves

/-- A step that answers runs the front command on the queue's rest, or idles. -/
theorem step_cases (s t : State) (e : step s = .next t) :
    (∃ c rest, s.pending = c :: rest ∧ exec c { s with pending := rest } = .next t) ∨ t = s := by
  unfold step at e
  split at e
  · right
    injection e with e
    exact e.symm
  · exact .inl ⟨_, _, by assumption, e⟩

/-- What holds of every command holds of a step. -/
theorem CommandMoves.step {R : Part → Part → Prop} (h : CommandMoves R) (s t : State)
    (e : Machine.step s = .next t) : R s.part t.part := by
  rcases step_cases s t e with ⟨c, rest, _, k⟩ | rfl
  · exact h.exec c { s with pending := rest } t k
  · exact h.refl _

end Sys2Proof.Machine
end

