-- ==== Sys2Proof/Laws/Layouts.lean ====
section
/-! SUPPORT. What the layouts of the link and of the stored image say once: lengths, codes read back, and when an image
loads. -/

namespace Sys2Proof.Machine

/-! ### Lengths -/

@[simp] theorem length_beBytes (k n : Nat) : (beBytes k n).length = k := by
  induction k with
  | zero => rfl
  | succ k ih => simp [beBytes, ih]

@[simp] theorem length_beInt (k : Nat) (z : Int) : (beInt k z).length = k := length_beBytes k _

@[simp] theorem length_levelBytes (o : Option Int) : (levelBytes o).length = 2 := length_beInt 2 _

@[simp] theorem length_word16Bytes (o : Option Nat) : (word16Bytes o).length = 2 := length_beBytes 2 _

@[simp] theorem length_secondsBytes (o : Option Nat) : (secondsBytes o).length = 4 := length_beBytes 4 _

@[simp] theorem length_crcBytes (bs : List Byte) : (crcBytes bs).length = 2 := length_beBytes 2 _

@[simp] theorem length_encodeUnits (n : Nat) (us : List UnitNo) : (encodeUnits n us).length = n := by
  induction n generalizing us with
  | zero => rfl
  | succ n ih => cases us <;> simp [encodeUnits, ih]

@[simp] theorem length_encodePoints (n : Nat) (cs : List CurvePoint) : (encodePoints n cs).length = 6 * n := by
  induction n generalizing cs with
  | zero => rfl
  | succ n ih => cases cs <;> simp [encodePoints, encodePoint, ih] <;> omega

@[simp] theorem length_pointsAt (bs : List Byte) (off n : Nat) : (pointsAt bs off n).length = n := by
  induction n generalizing off with
  | zero => rfl
  | succ n ih => simp [pointsAt, ih]

@[simp] theorem length_missingPoints (bs : List Byte) (n : Nat) : (missingPoints bs n).length = n := by
  induction n with
  | zero => rfl
  | succ n ih => simp [missingPoints, ih]

/-- The curve of a unit record has as many points as its point count says, in the six it holds or beyond. -/
@[simp] theorem length_curveAt (bs : List Byte) (count : Nat) : (curveAt bs count).length = count := by
  simp [curveAt]; omega

/-- A curve of at most six points is read from the record alone. -/
theorem curveAt_of_le {bs : List Byte} {count : Nat} (h : count ≤ 6) :
    curveAt bs count = pointsAt bs 5 count := by
  simp [curveAt, Nat.min_eq_left h, Nat.sub_eq_zero_of_le h, missingPoints]

@[simp] theorem length_encodeUnit (r : UnitRecord) : (encodeUnit r).length = 54 := by
  simp only [encodeUnit, List.length_append, length_beBytes, length_encodePoints, List.length_cons,
    List.length_nil]

@[simp] theorem length_encodeGauge (r : GaugeRecord) : (encodeGauge r).length = 5 := by
  simp only [encodeGauge, List.length_append, length_beBytes, length_beInt, List.length_cons, List.length_nil]

@[simp] theorem length_encodeLink (r : LinkSettings) : (encodeLink r).length = 2 := rfl

theorem length_encodeStation (r : StationRecord) : (encodeStation r).length = 55 + r.fixedOrder.length := by
  unfold encodeStation
  simp only [List.length_append, length_beBytes, length_beInt, List.length_cons, List.length_nil]
  generalize r.fixedOrder.length = n
  omega

/-! ### Codes -/

theorem BaudRate.ofCode_code {b : BaudRate} (h : b.named = true) : BaudRate.ofCode b.code = b := by
  cases b <;> first | rfl | cases h

theorem GapLimit.ofCode_code {g : GapLimit} (h : g.named = true) : GapLimit.ofCode g.code = g := by
  cases g <;> first | rfl | cases h

theorem Outlet.ofCode_code {o : Outlet} (h : o.named = true) : Outlet.ofCode o.code = o := by
  cases o <;> first | rfl | cases h

theorem RankingMode.ofCode_code {m : RankingMode} (h : m.named = true) : RankingMode.ofCode m.code = m := by
  cases m <;> first | rfl | cases h

/-! ### The stored image -/

/-- The load of 408 bytes and their check is what the bytes give, whatever codes they hold (R197). -/
theorem loadImage_append {bs : List Byte} (h : bs.length = 408) :
    loadImage (bs ++ crcBytes bs) = some (decodeConfig bs) := by
  have t : (bs ++ crcBytes bs).take 408 = bs := by rw [← h, List.take_left]
  have d : (bs ++ crcBytes bs).drop 408 = crcBytes bs := by rw [← h, List.drop_left]
  have k : (crcBytes bs).take 2 = crcBytes bs := List.take_of_length_le (by simp)
  have l : (bs ++ crcBytes bs).length = 410 := by rw [List.length_append, h, length_crcBytes]
  simp only [loadImage, imageAgrees, sliceAt, List.drop_zero, t, d, k, l]
  simp

/-- An image is loaded exactly where its check agrees (R197). -/
theorem isSome_loadImage (image : List Byte) : (loadImage image).isSome = imageAgrees image := by
  unfold loadImage; split <;> simp_all

end Sys2Proof.Machine
end

