-- ==== Sys2Proof/Tests/Slice0.lean ====
section
/-! SUPPORT. Tests of the model on fixed values: the checks of WellFormed, worked cases of the manual, single
commands on small states, and states that meet the hypotheses of the obligations. -/

open Sys2Proof Sys2Proof.Machine

section
set_option Elab.async false

/-! ### Well-formed commands -/

theorem test_wellFormed_unknownKind :
    Instr.wellFormed (.unknownKind 1#8 0x7F#8) = true
      ∧ Instr.wellFormed (.unknownKind 1#8 0x00#8) = true
      ∧ Instr.wellFormed (.unknownKind 1#8 0x33#8) = false := by decide

theorem test_wellFormed_refusalLength :
    Instr.wellFormed (.refusalLength 1#8 0x10#8 5#8) = true
      ∧ Instr.wellFormed (.refusalLength 1#8 0x10#8 4#8) = false
      ∧ Instr.wellFormed (.refusalLength 1#8 0x7F#8 5#8) = false
      ∧ Instr.wellFormed (.refusalLength 1#8 0x10#8 240#8) = true
      ∧ Instr.wellFormed (.refusalLength 1#8 0x10#8 241#8) = false
      ∧ Instr.wellFormed (.refusalLength 1#8 0x30#8 1#8) = true
      ∧ Instr.wellFormed (.refusalLength 1#8 0x30#8 2#8) = false := by decide

theorem test_wellFormed_oversize :
    Instr.wellFormed (.oversize 241#8) = true ∧ Instr.wellFormed (.oversize 240#8) = false := by decide

theorem test_wellFormed_writeConfig :
    Instr.wellFormed (.writeConfigLink 1#8 0#8 (List.replicate 238 0#8)) = true
      ∧ Instr.wellFormed (.writeConfigLink 1#8 0#8 (List.replicate 239 0#8)) = false
      ∧ Instr.wellFormed (.writeConfigStation 1#8 0#8 (List.replicate 239 0#8)) = false
      ∧ Instr.wellFormed (.writeConfigGauge 1#8 1#8 (List.replicate 239 0#8)) = false
      ∧ Instr.wellFormed (.writeConfigUnit 1#8 1#8 (List.replicate 239 0#8)) = false := by decide +kernel

/-! ### Worked cases of the manual -/

namespace Slice0Tests

/-- Unit 3 of the worked case of chapter 2. -/
def curve3 : List CurvePoint :=
  [⟨0, 2400, 95⟩, ⟨2000, 2100, 120⟩, ⟨4000, 1650, 140⟩, ⟨5500, 1100, 150⟩, ⟨6200, 0, 152⟩]

/-- Unit 1 of the second worked case of chapter 2. -/
def curve1 : List CurvePoint := [⟨1000, 3000, 210⟩, ⟨3000, 3200, 230⟩, ⟨5000, 2000, 250⟩]

/-- A unit record with that curve, enabled. -/
def rec3 : UnitRecord :=
  { UnitRecord.default with
    enabled := true
    loss := 350
    curve := curve3
    minRun := 600
    minRest := 300
    maxStarts := 3
    startRetries := 1
    headLimitDwell := 120 }

/-- A configured station: budget 700 kW, curtailed 250 kW, levels −2,700 to −1,600 mm. -/
def config : WorkingCopy :=
  { WorkingCopy.default with
    station :=
      { StationRecord.default with
        stopLevel := -2700
        highLevel := -1600
        area := 12000
        drawdown := 1800
        hysteresis := 300
        stationBudget := 700
        curtailedBudget := 250
        stagger := 30
        shedDelay := 10
        restrictThreshold := 300
        tripThreshold := 600
        agreementLimit := 100
        holdLimit := 60
        openMargin := 200
        closeMargin := 80
        rakeInterval := 3600
        supervisionTimeout := 300
        fallbackTarget := -2350
        fallbackBand := 150
        fallbackHead := 4000 }
    gauges := ⟨⟨true, -6000, 8000⟩, ⟨true, -6000, 8000⟩, ⟨true, -6000, 8000⟩, ⟨false, -6000, 8000⟩⟩
    units := Six.const rec3 }

/-- A VALID channel with this current, and one that is INVALID. -/
def live (i : Nat) : Channel := ⟨[i, i, i], .valid⟩
def broken : Channel := ⟨[0, 0, 0], .invalid .wireBreak⟩

/-- A snapshot with both levels live. -/
def snap : Snapshot :=
  { time := 0#32, inner := some (-2110), innerQuality := .both, outer := some 1850, outerQuality := .ok,
    screen := none, rackLoss := none, rack := .clear, floatHigh := false, floatLow := false, mode := .fast }

/-- An idle unit. -/
def idle : PumpUnit := { PumpUnit.atReset with state := .idle, retriesLeft := 1 }

/-- A part in service with nothing going on: mains OK, every unit IDLE, the sluice CLOSED. -/
def calm : Part :=
  { Part.reset with
    gauge :=
      { Part.reset.gauge with
        channels := ⟨live 11780, live 11780, live 19700, ⟨[], .notFitted⟩⟩
        snapshot := some snap
        innerQuality := .both
        outerQuality := .ok }
    curves := Six.const ⟨4310, .outerOk, 1537, 142, false⟩
    fallbackInUse := 4000
    units := Six.const idle
    arbiter := { Part.reset.arbiter with effective := 700 }
    sluice :=
      { Part.reset.sluice with state := .closed, waiting := false, cause := none, atClosed := true }
    plan := ⟨-2300, 150, none, false, [], .empty⟩
    supervision := ⟨.supervised, some ⟨300, 0#32⟩, none, .ok, none, none, [], true⟩
    accounting := { Part.reset.accounting with clock := 1000000#32, uptime := 10000#32 }
    store := { Part.reset.store with configured := true }
    config := config }

/-- The calm part with unit 2 changed. -/
def withU2 (f : PumpUnit → PumpUnit) : State := ⟨calm.modUnit .u2 f, []⟩

/-- The calm part with its link changed. -/
def withLink (f : Link → Link) : State := ⟨{ calm with link := f calm.link }, []⟩

/-- The calm part changed. -/
def withP (f : Part → Part) : State := ⟨f calm, []⟩

/-- Unit 2 in this state, its RUN as given. -/
def inState (st : UnitState) (run : Bool) : State := withU2 fun pu => { pu with state := st, run := run }

/-- The record of unit 2 changed. -/
def withRec2 (f : UnitRecord → UnitRecord) : State :=
  withP fun p => { p with config.units := p.config.units.set .u2 (f rec3) }

/-- The gauges of the calm part: four channels and the two held levels. -/
def gauged (ga gb go gs : Channel) (held heldOuter : Option HeldLevel) : Part :=
  { calm with
    gauge := { calm.gauge with channels := ⟨ga, gb, go, gs⟩, heldInner := held, heldOuter := heldOuter } }

/-- The calm part whose qualities of the round before were these. -/
def qualities (q : InnerQuality) (o : OuterQuality) (p : Part) : Part :=
  { p with gauge := { p.gauge with innerQuality := q, outerQuality := o } }

/-- The calm part with these float lines. -/
def floats (high low : Bool) : State := withP fun p => p.setFloats high low

/-- No current on any gauge, and a field with every line released. -/
def noCur : Currents := ⟨0, 0, 0, 0⟩
def noField : FieldInputs :=
  ⟨⟨Six.const ⟨false, false, false⟩, false, false, false, false, false, false, false⟩, noCur⟩

/-- A part at work: unit 2 RUNNING, unit 3 QUEUED, the gate CLOSING, the cleaner RAKING, a plan waiting, a reply being
sent. -/
def busy : Part :=
  { calm with
    units :=
      { calm.units with
        u2 :=
          { idle with
            state := .running
            run := true
            startOut := true
            airvalveOut := true
            reserved := 142
            minRunTimer := some ⟨600, 9900#32⟩
            history := [9890#32] }
        u3 := { idle with state := .queued } }
    arbiter :=
      { calm.arbiter with
        queue := [⟨.u3, .hand, 9950#32⟩]
        stagger := some ⟨30, 9990#32⟩
        committed := 142 }
    sluice := ⟨.closing, .auto, some ⟨60, 9980#32⟩, false, some .margin, false, true, false, false⟩
    cleaner := ⟨.raking, some .loss, some ⟨120, 9950#32⟩, none, none, true, false⟩
    plan := { calm.plan with entries := [⟨1000060#32, -2400, none, none, none⟩], planState := .waiting }
    link := { calm.link with rx := .replying, direction := true, discarding := true, gap := some 20 } }

/-- The part of an outcome, the part given where there is none. -/
def partOf (p : Part) : Result → Part
  | .next t => t.part
  | _ => p

/-- The codes of the records that a command appends to the calm part's two. -/
def codesOf (r : Result) : List EventCode := ((partOf calm r).events.records.drop 2).map (·.code)

end Slice0Tests

open Slice0Tests

/-- R2's table. -/
theorem test_levels :
    levelOf ⟨true, -6000, 8000⟩ (median 9420 9380 9455) = -3290
      ∧ levelOf ⟨true, -6000, 8000⟩ (median 9421 9380 9455) = -3290
      ∧ levelOf ⟨true, -6000, 8000⟩ (median 20400 20310 20480) = 2000
      ∧ levelOf ⟨true, 15000, 40000⟩ (median 19000 19100 19050) = 20000 := by decide +kernel

/-- R1's table. -/
theorem test_channelStates :
    stateOfBuffer [9420, 9380] = .init ∧ stateOfBuffer [9420, 9380, 9455] = .valid
      ∧ stateOfBuffer [9455, 3120, 9440] = .invalid .wireBreak
      ∧ stateOfBuffer [3800, 20500, 9440] = .valid
      ∧ stateOfBuffer [3799, 20501, 9440] = .invalid .overrange := by decide +kernel

/-- R10's example: restrict 300 mm, trip 600 mm. -/
theorem test_rack :
    rackAfter config.station (some 560) .trip = .trip ∧ rackAfter config.station (some 549) .trip = .restrict
      ∧ rackAfter config.station (some 249) .trip = .clear
      ∧ rackAfter config.station (some 640) .clear = .trip := by decide +kernel

/-- The worked cases of chapter 2. -/
theorem test_curves :
    readCurve curve3 4310 = ⟨1537, 142, false⟩ ∧ readCurve curve3 6300 = ⟨0, 152, true⟩
      ∧ readCurve curve3 6200 = ⟨0, 152, false⟩ ∧ readCurve curve1 600 = ⟨3000, 210, false⟩
      ∧ readCurve curve1 3001 = ⟨3200, 230, false⟩ ∧ readCurve curve1 4999 = ⟨2001, 249, false⟩
      ∧ readCurve curve1 5001 = ⟨0, 250, true⟩ := by decide +kernel

/-- R67's table. -/
theorem test_demand :
    demandOf 3900 12000 1800 (-2110) (-2300) = 5166 ∧ demandOf 500 12000 1800 (-2400) (-2300) = 0
      ∧ demandOf 2000 12000 1800 (-2400) (-2300) = 1334
      ∧ demandOf 60000 500000 60 1000 (-2000) = 65535 := by decide +kernel

/-- R86's table. -/
theorem test_ranking :
    startOrderOf StationRecord.default ⟨40000, 52000, 38500, 61000, 0, 0⟩ = [.u5, .u6, .u3, .u1, .u2, .u4] := by
  decide +kernel

/-- R135's table. -/
theorem test_targets :
    ((calm.applyTarget (-2650) 150).plan.target, (calm.applyTarget (-2650) 150).plan.band) = (-2550, 150)
      ∧ ((calm.applyTarget (-1700) 900).plan.target, (calm.applyTarget (-1700) 900).plan.band)
        = (-2150, 550)
      ∧ ((calm.applyTarget (-2300) 10).plan.target, (calm.applyTarget (-2300) 10).plan.band)
        = (-2300, 20) := by decide +kernel

/-- R172's worked case. -/
theorem test_check :
    telegram 0x01#8 0x01#8 [] = [0x5A#8, 0x00#8, 0x01#8, 0x01#8, 0xEF#8, 0x8C#8] := by decide +kernel

/-! ### Single commands -/

/-- A power-on reset from the reset state with nothing asserted is the reset state. -/
theorem test_powerOnReset :
    partOf calm (exec (.powerOnReset
        ⟨⟨Six.const ⟨false, false, false⟩, false, false, false, false, false, false, false⟩, ⟨0, 0, 0, 0⟩⟩)
      ⟨{ calm with store := Part.reset.store }, []⟩) = Part.reset := by decide +kernel

/-- A hand start in the calm part grants the unit at once (R97, R105): a FLAP unit would start, this SIPHON unit
primes. -/
theorem test_handStart :
    ((partOf calm (exec (.handStart 7#8 2#8 ⟨0, 0, 0, 0⟩) ⟨calm, []⟩)).unit .u2).state = .priming
      ∧ (partOf calm (exec (.handStart 7#8 2#8 ⟨0, 0, 0, 0⟩) ⟨calm, []⟩)).arbiter.committed = 142 := by
  decide +kernel

/-- R36's table: a prime failure with one retry. -/
theorem test_primeFailure :
    codesOf (exec (.primeTimerExpiry .u2 ⟨0, 0, 0, 0⟩)
        (withU2 fun pu => { pu with state := .priming, primeTimer := some ⟨120, 0#32⟩ }))
      = [.primeFail, .retryScheduled] := by decide +kernel

/-- R52's table: three starts in the hour, START_LIMIT once. -/
theorem test_startLimit :
    codesOf (exec (.askUnit 1#8 2#8)
        (withU2 fun pu => { pu with history := [6100#32, 7200#32, 8400#32, 9500#32] }))
      = [.startLimit] := by decide +kernel

/-- R110: CURTAIL in the calm part. -/
theorem test_curtail :
    (partOf calm (exec .curtailAsserted ⟨calm, []⟩)).arbiter.effective = 250
      ∧ codesOf (exec .curtailAsserted ⟨calm, []⟩) = [.curtailOn] := by decide +kernel

/-- R175, R178: the last byte of the worked telegram asks for the station state. -/
theorem test_lastByte :
    (partOf calm (exec (.byteReceived 0x8C#8 ⟨0, 0, 0, 0⟩)
        (withLink fun l =>
          { l with
            rx := .inTelegram
            buffer := [0x5A#8, 0x00#8, 0x01#8, 0x01#8, 0xEF#8]
            gap := some 20 }))).link.rx = .replying := by decide +kernel

/-- R142: two entries due at a forward SET_CLOCK. -/
theorem test_setClock :
    codesOf (exec (.setClock 1#8 1008000#32)
        ⟨{ calm with
            plan :=
              { calm.plan with
                entries :=
                  [⟨1003600#32, -2400, some 150, none, some true⟩, ⟨1007200#32, -2250, none, some 450, none⟩,
                    ⟨1010800#32, -2300, some 100, none, none⟩]
                planState := .waiting } }, []⟩)
      = [.planSkipped, .planApplied] := by decide +kernel

/-! ### States that meet the hypotheses of the obligations -/

/-- The busy part meets every invariant, and commands answer there. -/
theorem test_meets_OutputLinesFollowState : busy.UnitLinesFollow := by intro u; cases u <;> decide

theorem test_meets_UnitTimersFitStates : busy.UnitTimersFit := by
  intro u; unfold PumpUnit.timersFit; cases u <;> decide

theorem test_meets_UnitBooksFitStates : busy.UnitBooksFit := by
  refine ⟨?_, rfl⟩; intro u; unfold PumpUnit.booksFit; cases u <;> decide

theorem test_meets_ArbiterAgreesWithUnits : busy.ArbiterConsistent := by
  refine ⟨⟨?_, by decide⟩, ?_, ⟨by decide, fun h => absurd rfl h⟩, ⟨by decide, by decide⟩, rfl⟩
  · intro u; cases u <;> decide
  · intro u; cases u <;> decide

theorem test_meets_AlertFollowsAndListsBounded : busy.AlertFollows ∧ busy.ListsBounded := by
  refine ⟨⟨by decide, by decide⟩, ?_, by decide⟩; intro u; cases u <;> decide

theorem test_meets_MainsSluiceCleanerFollow :
    busy.MainsFollows ∧ busy.SluiceFollows ∧ busy.CleanerFollows := by
  refine ⟨?_, ?_, ?_⟩
  · unfold Part.MainsFollows; decide
  · unfold Part.SluiceFollows; decide
  · unfold Part.CleanerFollows; decide

theorem test_meets_PlanStaysOrdered : busy.PlanOrdered := by unfold Part.PlanOrdered; decide

theorem test_meets_LinkStatesFit : busy.LinkFits := by unfold Part.LinkFits; decide

theorem test_busyAnswers :
    (∃ t, step ⟨busy, [.accountingSecond]⟩ = .next t) ∧ ∃ t, step ⟨busy, [.tripAsserted .u2]⟩ = .next t :=
  ⟨⟨_, rfl⟩, ⟨_, rfl⟩⟩

/-! Chapter 1. -/

theorem test_meets_RoundSamplesChannels :
    (config.gauges.get .gs).fitted = false
      ∧ (gauged ⟨[5000], .init⟩ (live 11780) (live 19700) broken none none |>.round ⟨3800, 0, 0, 0⟩
        ).gauge.channels.ga = ⟨[5000, 3800], .init⟩
      ∧ (gauged ⟨[5000, 3800], .init⟩ (live 11780) (live 19700) broken none none |>.round ⟨20500, 0, 0, 0⟩
        ).gauge.channels.ga = ⟨[5000, 3800, 20500], .valid⟩
      ∧ (gauged ⟨[9000, 3799, 9100], .valid⟩ (live 11780) (live 19700) broken none none |>.round
        ⟨20501, 0, 0, 0⟩).gauge.channels.ga = ⟨[3799, 9100, 20501], .invalid .overrange⟩
      ∧ (gauged (live 20501) (live 11780) (live 19700) broken none none |>.round
        ⟨3799, 0, 0, 0⟩).gauge.channels.ga = ⟨[20501, 20501, 3799], .invalid .wireBreak⟩ := by decide +kernel

theorem test_meets_ChannelLevelFromMedian :
    broken.state ≠ .valid ∧ [9420, 9380, 9455].Perm [9380, 9420, 9455]
      ∧ (Channel.mk [9420, 9380, 9455] .valid).level ⟨true, -6000, 8000⟩ = some (-3290)
      ∧ (live 3800).level ⟨true, -6000, 8000⟩ = some (-6000)
      ∧ (live 20500).level ⟨true, 15000, 40000⟩ = some 20000 := by decide +kernel

/-- R5 and R6: an agreement of exactly 100 mm and one of 101 mm, the nearer of two levels, one level alone, a held
level of exactly 60 s and of 61 s; R8 alike. -/
theorem test_meets_QualitiesByTable :
    (gauged ⟨[], .init⟩ (live 9420) (live 19700) broken none none).findInner.quality = .init
      ∧ (gauged (live 9420) (live 9620) (live 19700) broken none none).findInner.quality = .both
      ∧ (gauged (live 9420) (live 9622) (live 19700) broken none none).findInner.level = some (-3290)
      ∧ (gauged (live 9420) (live 9622) (live 19700) broken (some ⟨-3000, 1#32⟩) none).findInner.level
        = some (-3189)
      ∧ (gauged (live 9420) broken (live 19700) broken none none).findInner.quality = .single
      ∧ (gauged broken (live 9420) (live 19700) broken none none).findInner.quality = .single
      ∧ (gauged broken broken (live 19700) broken (some ⟨-3000, 9940#32⟩) none).findInner.quality = .held
      ∧ (gauged broken broken (live 19700) broken (some ⟨-3000, 9939#32⟩) none).findInner.quality = .lost
      ∧ (gauged broken broken (live 19700) broken none none).findInner.quality = .lost
      ∧ (gauged broken broken ⟨[], .init⟩ broken none none).findOuter.quality = .init
      ∧ (gauged broken broken (live 19700) broken none none).findOuter.quality = .ok
      ∧ (gauged broken broken broken broken none (some ⟨5, 9940#32⟩)).findOuter.quality = .held
      ∧ (gauged broken broken broken broken none (some ⟨5, 9939#32⟩)).findOuter.quality = .lost
      ∧ (gauged broken broken broken broken none none).findOuter.quality = .lost
      ∧ (gauged broken broken ⟨[], .notFitted⟩ broken none (some ⟨5, 9940#32⟩)).findOuter.quality = .held
      ∧ (gauged broken broken ⟨[], .notFitted⟩ broken none none).findOuter.quality = .lost
      ∧ (gauged (live 9420) broken (live 19700) (live 9820) none none).findScreen
          (gauged (live 9420) broken (live 19700) (live 9820) none none).findInner = some (-3090)
      ∧ (gauged (live 9420) broken (live 19700) broken none none).channelLevel .gs = none := by decide +kernel

/-- A rising pair of thresholds with every row of R10, and each record of R7 and R8. -/
theorem test_meets_RackAndLevelRecords :
    config.station.restrictThreshold < config.station.tripThreshold
      ∧ rackEvent .clear (rackAfter config.station (some 300) .clear) (some 300)
        = some (.rackRestrict, some 300)
      ∧ rackEvent .trip (rackAfter config.station (some 250) .trip) (some 250)
        = some (.rackRestrict, some 250)
      ∧ rackEvent .clear (rackAfter config.station (some 299) .clear) (some 299) = none
      ∧ (let p := qualities .single .ok (gauged (live 9420) (live 9622) (live 19700) broken none none);
          p.innerEvent p.findInner = some (.innerDisagree, some (-101)) ∧ p.outerEvent p.findOuter = none)
      ∧ (let p := qualities .both .held (gauged (live 9420) broken (live 19700) broken none none);
          p.innerEvent p.findInner = some (.innerSingle, some 1)
            ∧ p.outerEvent p.findOuter = some (.outerRestored, some 1850))
      ∧ (let p := qualities .both .ok
            (gauged broken broken broken broken (some ⟨-3000, 9940#32⟩) (some ⟨5, 9940#32⟩));
          p.innerEvent p.findInner = some (.innerHeld, some (-3000))
            ∧ p.outerEvent p.findOuter = some (.outerHeld, some 5))
      ∧ (let p := qualities .held .held (gauged broken broken broken broken none none);
          p.innerEvent p.findInner = some (.innerLost, none)
            ∧ p.outerEvent p.findOuter = some (.outerLost, none))
      ∧ (let p := qualities .held .init (gauged (live 9420) (live 9420) (live 19700) broken none none);
          p.innerEvent p.findInner = some (.innerRestored, some (-3290))
            ∧ p.outerEvent p.findOuter = none)
      ∧ (let p := qualities .init .init (gauged (live 9420) broken ⟨[], .init⟩ broken none none);
          p.innerEvent p.findInner = none ∧ p.outerEvent p.findOuter = none) := by decide +kernel

theorem test_meets_FloatLinesActAndStartRound :
    (∀ high low : Bool, (floats high low).part.gauge.floatHigh = high
        ∧ (floats high low).part.gauge.floatLow = low)
      ∧ (codesOf (exec (.floatHighAsserted noCur) (floats false true))).take 1 = [.floatConflict]
      ∧ (codesOf (exec (.floatLowAsserted noCur) (floats true false))).take 2 = [.floatLow, .floatConflict]
      ∧ (codesOf (exec (.floatLowReleased noCur) (floats true true))).take 1 = [.floatHigh] := by
  decide +kernel

/-! Chapter 2. -/

theorem test_meets_CurveEstimates :
    headsRise curve1 = true ∧ curve1 = [] ++ ⟨1000, 3000, 210⟩ :: ⟨3000, 3200, 230⟩ :: [⟨5000, 2000, 250⟩]
      ∧ readCurve curve1 999 = ⟨3000, 210, false⟩ ∧ readCurve curve1 1000 = ⟨3000, 210, false⟩
      ∧ readCurve curve1 1001 = ⟨3000, 210, false⟩ ∧ readCurve curve1 2999 = ⟨3199, 229, false⟩
      ∧ readCurve curve1 5000 = ⟨2000, 250, false⟩ ∧ readCurve curve1 5001 = ⟨0, 250, true⟩
      ∧ ∀ a ∈ curve1, 2000 ≤ a.flow ∧ a.flow ≤ 3200 ∧ 210 ≤ a.power ∧ a.power ≤ 250 := by decide +kernel

/-- Heads from both levels, held at the least and greatest head, from the fallback, and kept. -/
theorem test_meets_HeadsFormedAtSnapshot :
    ((calm.round ⟨11780, 11780, 19700, 0⟩).curves.u1 = ⟨4310, .outerOk, 1537, 142, false⟩)
      ∧ (calm.round ⟨20000, 20000, 3800, 0⟩).curves.u1.basis = .outerOk
      ∧ (calm.round ⟨11780, 11780, 0, 0⟩).curves.u1 = ⟨4350, .fallback, 1522, 142, false⟩
      ∧ ((gauged (live 11780) (live 11780) broken broken none (some ⟨-9000, 9940#32⟩)).round
        ⟨11780, 11780, 0, 0⟩).curves.u1 = ⟨0, .outerHeld, 2400, 95, false⟩
      ∧ ((gauged broken broken (live 19700) broken none none).round ⟨0, 0, 0, 0⟩).curves.u1.head = 4310 := by
  decide +kernel

/-- The snapshot in force formed heads on the FALLBACK basis, then a station record changed the fallback head to 5,000:
a unit record write still uses 4,000, and the next such round takes 5,000 (R18). -/
theorem test_fallbackHeadFirstUsedAtSnapshot :
    (let lost : Part := calm.round ⟨11780, 11780, 0, 0⟩;
      let changed : Part := { lost with config.station.fallbackHead := 5000 };
      lost.curves.u2.basis = .fallback ∧ (changed.reformCurve .u2).curves.u2 = lost.curves.u2
        ∧ (({ calm with config := changed.config }).round ⟨11780, 11780, 19700, 0⟩).fallbackInUse = 4000
        ∧ (changed.round ⟨11780, 11780, 0, 0⟩).fallbackInUse = 5000
        ∧ (changed.round ⟨11780, 11780, 0, 0⟩).curves.u2.head = lost.curves.u2.head + 1000) := by
  decide +kernel

theorem test_meets_HeadsByTable :
    (let by' (f : Snapshot → Snapshot) : Derived := deriveFrom 4000 rec3 (f snap) ⟨100, .outerOk, 0, 0, false⟩;
      (by' fun s => { s with inner := none }).head = 100
        ∧ (by' fun s => { s with inner := some (-20000), outer := some 20000 }).head = 30000
        ∧ (by' fun s => { s with outer := none, outerQuality := .lost }).basis = .fallback) := by decide +kernel

/-! Chapter 3. Unit 2 in each state with RUN released, and in the delivering states with RUN asserted. -/

theorem test_meets_unitStates :
    (∀ st ∈ ([.offline, .idle, .queued, .priming, .starting, .running, .stopping, .resting, .tripped] :
        List UnitState),
      ((inState st false).part.unit .u2).state = st ∧ ((inState st false).part.unit .u2).run = false
        ∧ ((inState st false).part.unit .u2).trip = false ∧ ((inState st false).part.unit .u2).primed = false
        ∧ ((inState st true).part.unit .u2).run = true)
      ∧ (inState .idle false).part.link.receives = true ∧ (inState .idle false).part.roundDue = false
      ∧ (2#8).toNat = UnitNo.u2.number := by decide

theorem test_meets_StartSequence :
    (config.units.get .u2).outlet = .siphon ∧ (calm.unit .u2).primed = false
      ∧ ((withRec2 fun r => { r with outlet := .flap }).part.unitRecord .u2).outlet = .flap
      ∧ ((partOf calm (exec (.primedAsserted .u2) (inState .priming false))).unit .u2).state = .starting
      ∧ ((partOf calm (exec (.primedAsserted .u2) (inState .running true))).unit .u2).state = .running
      ∧ codesOf (exec (.runAsserted .u2) (inState .starting false)) = [.unitRunning] := by decide +kernel

/-- Unit 2 in this state with the slot, its record changed: a prime or start timer of 0 s fails the start at once, to a
retry with its rest, to TRIPPED without one, and with a rest of 0 s back into the queue, the stagger running (R30). -/
theorem test_meets_StartTimersOfZero :
    (let at' (f : UnitRecord → UnitRecord) (st : UnitState) (n : Nat) : Part :=
        ({ (withRec2 f).part with arbiter.slot := some .u2 }).modUnit .u2 fun pu =>
          { pu with state := st, retriesLeft := n };
      let noPrime := at' (fun r => { r with primeTimeout := 0 }) .priming;
      let noStart := at' (fun r => { r with startTimeout := 0 }) .starting;
      let noRest := at' (fun r => { r with primeTimeout := 0, minRest := 0 }) .priming 1;
      codesOf (.next ⟨(noPrime 1).startIfZero .u2, []⟩) = [.primeFail, .retryScheduled]
        ∧ (((noPrime 1).startIfZero .u2).unit .u2).state = .resting
        ∧ ((noPrime 1).startIfZero .u2).arbiter.slot = none
        ∧ ((noPrime 1).startIfZero .u2).arbiter.stagger = some ⟨30, 10000#32⟩
        ∧ (((noPrime 0).startIfZero .u2).unit .u2).fault = some .primeFail
        ∧ (((noStart 0).startIfZero .u2).unit .u2).fault = some .startFail
        ∧ ((noRest.startIfZero .u2).unit .u2).state = .queued
        ∧ (noRest.startIfZero .u2).roundDue = true
        ∧ (at' id .priming 1).startIfZero .u2 = at' id .priming 1) := by decide +kernel

/-- A hand start whose prime timer is 0 s ends its grant in RESTING; PRIMED with a start timer of 0 s fails the start; RUN
released with a run-loss timer of 0 s is LOST_RUN; a stop order with a stop timer of 0 s is STOP_FAIL (R30). -/
theorem test_unitTimersOfZero :
    (let moved (f : UnitRecord → UnitRecord) (st : UnitState) (run : Bool) : State :=
        ⟨(withRec2 f).part.modUnit .u2 fun pu => { pu with state := st, run := run }, []⟩;
      ((partOf calm (exec (.handStart 7#8 2#8 noCur) (moved (fun r => { r with primeTimeout := 0 }) .idle
          false))).unit .u2).state = .resting
        ∧ codesOf (exec (.primedAsserted .u2) (moved (fun r => { r with startTimeout := 0 }) .priming false))
          = [.startFail, .retryScheduled]
        ∧ codesOf (exec (.runReleased .u2) (moved (fun r => { r with runLossDelay := 0 }) .running true))
          = [.lostRun]
        ∧ codesOf (exec (.handStop 7#8 2#8) (moved (fun r => { r with stopTimeout := 0 }) .running true))
          = [.stopFail]) := by decide +kernel

theorem test_meets_RunLineOutsideStarting :
    (codesOf (exec (.runAsserted .u2) (inState .offline false)) = [.uncommandedRun])
      ∧ ((withU2 fun pu => { pu with state := .running, runLossTimer := some ⟨3, 0#32⟩ }).part.unit
        .u2).runLossTimer.isSome = true
      ∧ ((inState .running false).part.unit .u2).runLossTimer = none
      ∧ ((partOf calm (exec (.runReleased .u2) (inState .running true))).unit .u2).runLossTimer.isSome = true
      ∧ codesOf (exec (.runReleased .u2) (inState .stopping true)) = [.unitStopped]
      ∧ ((partOf calm (exec (.runReleased .u2) (inState .idle true))).unit .u2).state = .idle := by
  decide +kernel

/-- Ends of a stop: the unit disabled, a MAINS order, a rest of 300 s, a rest of 0 s; a stop order taken and not. -/
theorem test_meets_StopSequence :
    (((withRec2 fun r => { r with enabled := false }).part.unitRecord .u2).enabled = false
        ∧ (rec3.enabled = true ∧ rec3.minRest ≠ 0)
        ∧ ((withRec2 fun r => { r with minRest := 0 }).part.unitRecord .u2).minRest = 0)
      ∧ (calm.supervision.mains = .ok ∧ (calm.unit .u2).retryPending = false
        ∧ ((withU2 fun pu => { pu with stopOrigin := some .mains }).part.unit .u2).stopOrigin = some .mains)
      ∧ (((inState .running true).part.stopOrder .u2 .dispatch).unit .u2).state = .running
      ∧ (((inState .running true).part.stopOrder .u2 .hand).unit .u2).state = .stopping
      ∧ (((inState .starting false).part.stopOrder .u2 .hand).unit .u2).state = .resting
      ∧ (((inState .idle true).part.stopOrder .u2 .reset).unit .u2).state = .stopping
      ∧ (((inState .idle true).part.stopOrder .u2 .mains).unit .u2).state = .idle := by decide +kernel

theorem test_meets_StartFailuresAndRests :
    codesOf (exec (.startTimerExpiry .u2 noCur)
        (withU2 fun pu => { pu with state := .starting, startTimer := some ⟨5, 0#32⟩, retriesLeft := 0 }))
      = [.startFail]
      ∧ (let s := withU2 fun pu => { pu with state := .resting, restTimer := some ⟨300, 0#32⟩ };
          (s.part.unit .u2).retryPending = false ∧ s.part.roundDue = false
            ∧ ((partOf calm (exec (.restTimerExpiry .u2 noCur) s)).unit .u2).state = .idle)
      ∧ (let s := withU2 fun pu =>
            { pu with state := .resting, restTimer := some ⟨300, 0#32⟩, retryPending := true };
          s.part.eligible .u2 true = true
            ∧ ((partOf calm (exec (.restTimerExpiry .u2 noCur) s)).unit .u2).state = .priming)
      ∧ (let s := withU2 fun pu =>
            { pu with
              state := .resting
              restTimer := some ⟨300, 0#32⟩
              retryPending := true
              history := [9000#32, 9100#32, 9200#32] };
          s.part.eligible .u2 true = false
            ∧ ((partOf calm (exec (.restTimerExpiry .u2 noCur) s)).unit .u2).state = .idle) := by
  decide +kernel

theorem test_meets_UnitTimersAndDwell :
    codesOf (exec (.stopTimerExpiry .u2)
        (withU2 fun pu => { pu with state := .stopping, stopTimer := some ⟨9, 0#32⟩ })) = [.stopFail]
      ∧ codesOf (exec (.runLossTimerExpiry .u2)
        (withU2 fun pu => { pu with state := .running, runLossTimer := some ⟨9, 0#32⟩ })) = [.lostRun]
      ∧ codesOf (exec (.dwellTimerExpiry .u2)
        (withU2 fun pu => { pu with state := .running, run := true, dwellTimer := some ⟨9, 0#32⟩ }))
        = [.headLimitStop]
      ∧ ((partOf calm (exec (.minRunTimerExpiry .u2)
        (withU2 fun pu => { pu with state := .running, minRunTimer := some ⟨9, 0#32⟩ }))).unit
          .u2).minRunElapsed = true
      ∧ (let p := { (inState .running true).part with curves := Six.const ⟨6300, .outerOk, 0, 152, true⟩ };
          ((p.unitAtSnapshot snap .u2).unit .u2).dwellTimer = some ⟨120, 10000#32⟩
            ∧ (p.unit .u2).dwellTimer = none ∧ rec3.headLimitDwell ≠ 0)
      ∧ (let p :=
            { (withRec2 fun r => { r with headLimitDwell := 0 }).part with
              curves := Six.const ⟨6300, .outerOk, 0, 152, true⟩
              units := (inState .running true).part.units };
          ((p.unitAtSnapshot snap .u2).unit .u2).state = .stopping) := by decide +kernel

theorem test_meets_TripLine :
    codesOf (exec (.tripAsserted .u2) (inState .offline false)) = [.motorTrip]
      ∧ codesOf (exec (.tripAsserted .u2) (inState .tripped false)) = [.motorTrip]
      ∧ ((partOf calm (exec (.tripAsserted .u2) (inState .running true))).unit .u2).state = .tripped
      ∧ ((partOf calm (exec (.tripAsserted .u2) (inState .running false))).unit .u2).reserved = 0 := by
  decide +kernel

/-- A start exactly an hour old no longer counts, one of 3,599 s does; counts below and at the limit of 3. -/
theorem test_meets_HistoryConsulted :
    calm.eligible .u2 false = true
      ∧ (withU2 fun pu => { pu with history := [6400#32, 6401#32, 9000#32] }).part.eligible .u2 false = true
      ∧ (let p := (withU2 fun pu => { pu with history := [6401#32, 9000#32, 9500#32] }).part;
          p.eligible .u2 false = false ∧ (p.unit .u2).limitReported = false
            ∧ ((p.consult .u2 false).events.records.getLast?.bind (·.value)) = some 1)
      ∧ ((withU2 fun pu => { pu with history := [6401#32, 9000#32, 9500#32], limitReported := true }).part.unit
        .u2).limitReported = true := by decide +kernel

theorem test_meets_EnableDisable :
    ((partOf calm (exec (.enable 1#8 2#8) (inState .offline false))).unit .u2).state = .idle
      ∧ ((partOf calm (exec (.enable 1#8 2#8) (inState .idle false))).link.reply.take 3)
        = [0x5A#8, 2#8, 0x7F#8]
      ∧ ((partOf calm (exec (.disable 1#8 2#8) (inState .tripped false))).unit .u2).state = .offline
      ∧ ((partOf calm (exec (.disable 1#8 2#8) (inState .tripped true))).unit .u2).state = .tripped := by
  decide +kernel

theorem test_meets_HandAutoClearOrders :
    ((partOf calm (exec (.handStop 1#8 2#8) (inState .running true))).unit .u2).state = .stopping
      ∧ (let s := withU2 fun pu => { pu with history := [9000#32, 9100#32, 9200#32] };
          s.part.arrived.eligible .u2 false = false)
      ∧ calm.arrived.eligible .u2 false = true
      ∧ (let s := withU2 fun pu => { pu with state := .tripped, fault := some .lostRun };
          codesOf (exec (.unitClear 1#8 2#8) s) = [.unitCleared]
            ∧ ((partOf calm (exec (.unitClear 1#8 2#8) s)).unit .u2).state = .resting)
      ∧ ((withRec2 fun r => { r with enabled := false }).part.arrived.unitRecord .u2).enabled = false
      ∧ ((withRec2 fun r => { r with minRest := 0 }).part.arrived.unitRecord .u2).minRest = 0
      ∧ ((partOf calm (exec (.unitAuto 1#8 2#8) (withU2 fun pu => { pu with authority := .hand }))).unit
        .u2).authority = .auto := by decide +kernel

/-- Unit numbers at the ends of the range and just outside it. -/
theorem test_meets_AskUnitAndUnitNumbers :
    (1#8).toNat = UnitNo.u1.number ∧ (6#8).toNat = UnitNo.u6.number ∧ (0#8).toNat = 0 ∧ 6 < (7#8).toNat
      ∧ calm.link.receives = true ∧ calm.roundDue = false
      ∧ (calm.unit .u2).fault = none ∧ (calm.unit .u2).lastGrant = none
      ∧ ((withU2 fun pu => { pu with state := .tripped, fault := some .lostRun }).part.unit .u2).fault
        = some .lostRun := by decide

/-! Chapter 4. -/

/-- A usable window of exactly n + 1 = 3 records, one too short, and one with a record that does not count. -/
theorem test_meets_HistoryTimerClosesInterval :
    (let full (ok : Bool) : State := withP fun p =>
        { p with
          estimator :=
            { p.estimator with
              closedThroughout := true
              ring := [⟨9940#32, some (-2150), 0, true⟩, ⟨9970#32, some (-2130), 30, ok⟩] } };
      (partOf calm (exec .historyTimerExpiry (full true))).estimator.state = .active
        ∧ (partOf calm (exec .historyTimerExpiry (full true))).estimator.inflow = 8000
        ∧ (partOf calm (exec .historyTimerExpiry (full false))).estimator.state = .warming)
      ∧ (partOf calm (exec .historyTimerExpiry (withP id))).estimator.state = .warming
      ∧ 0 < config.station.window * config.station.interval ∧ calm.estimator.inflow ≤ 65535 := by decide +kernel

/-! Chapter 5. -/

namespace Slice0Tests

/-- The calm part with this snapshot in force. -/
def seeing (f : Snapshot → Snapshot) : Part :=
  { calm with gauge := { calm.gauge with snapshot := some (f snap) } }

/-- The part an evaluation leaves of `p`. -/
def evaluated (p : Part) : Part := partOf p (exec (.dispatchEvaluation ⟨11780, 11780, 19700, 0⟩) ⟨p, []⟩)

/-- The calm part with unit 2 RUNNING past its min-run. -/
def running (p : Part) : Part :=
  p.modUnit .u2 fun pu => { pu with state := .running, run := true, minRunElapsed := true }

/-- The calm part with unit 3 waiting in the queue for the dispatch controller, the slot held by unit 2. -/
def waiting (p : Part) : Part :=
  { p.modUnit .u3 fun pu => { pu with state := .queued } with
    arbiter := { p.arbiter with queue := [⟨.u3, .dispatch, 9000#32⟩], stagger := some ⟨30, 9990#32⟩ } }

end Slice0Tests

/-- Every stage of an evaluation: the gate, the rack trip with and without a running unit, a missing level with and
without FLOAT_HIGH, the high level and 1 mm below it, the drawdown and 1 mm above it. -/
theorem test_meets_EvaluationTakesFirstStage :
    (evaluated { calm with supervision := { calm.supervision with mode := .held } }).arbiter.queue = []
      ∧ ((evaluated (running (seeing fun s => { s with rack := .trip }))).unit .u2).state = .stopping
      ∧ ((evaluated (seeing fun s => { s with rack := .trip })).unit .u2).state = .idle
      ∧ (evaluated (seeing fun s => { s with inner := none })).arbiter.queue = []
      ∧ (evaluated { seeing fun s => { s with inner := none } with
          gauge := { (seeing fun s => { s with inner := none }).gauge with effHigh := true } }
        ).arbiter.slot = some .u1
      ∧ (evaluated (seeing fun s => { s with inner := some (-1600) })).arbiter.slot = some .u1
      ∧ (evaluated (seeing fun s => { s with inner := some (-1601) })).dispatcher.demand = 4660
      ∧ ((evaluated (running (seeing fun s => { s with inner := some (-2450) }))).unit .u2).state = .stopping
      ∧ (evaluated (seeing fun s => { s with inner := some (-2449) })).dispatcher.demand = 0 := by
  decide +kernel

theorem test_meets_RankingAndWalks :
    StationRecord.default.rankingMode = .rotate ∧ ({ config.station with rankingMode := .fixed }).rankingMode = .fixed
      ∧ (calm.unit .u2).authority = .auto ∧ (calm.unit .u2).state = .idle ∧ calm.eligible .u2 false = true
      ∧ ((withU2 fun pu => { pu with authority := .hand }).part.unit .u2).authority ≠ .auto
      ∧ (withRec2 fun r => { r with maxStarts := 0 }).part.eligible .u2 false = false := by decide +kernel

/-- The start test met, the withdraw test met at demand 0, the stop test met and missed by one, no candidate. -/
theorem test_meets_DemandAndDrawdownStages :
    (calm.demandStage snap (-1700)).arbiter.slot = some .u1
      ∧ ((waiting calm).demandStage snap (-2400)).arbiter.queue = []
      ∧ (let two (inflow : Nat) : Part :=
            { (running calm).modUnit .u1 fun pu => { pu with state := .running, run := true } with
              estimator := { calm.estimator with inflow := inflow } };
          (((two 1570).demandStage snap (-2350)).unit .u2).state = .stopping
            ∧ (((two 1571).demandStage snap (-2350)).unit .u2).state = .running)
      ∧ (calm.demandStage snap (-2400)).arbiter.queue = [] ∧ 0 < config.station.drawdown
      ∧ (waiting calm).drawdownStage.arbiter.queue = []
      ∧ ((running calm).drawdownStage.unit .u2).state = .stopping := by decide +kernel

/-- Levels at and above the stop level, at and below the release of the hold 100 mm above it. -/
theorem test_meets_ProtectionsAndFloatHigh :
    (let hold (p : Part) : Part := { p with dispatcher := { p.dispatcher with hold := true } };
      (calm.dispatchAtSnapshot { snap with inner := some (-2700) }).dispatcher.hold = true
        ∧ (calm.dispatchAtSnapshot { snap with inner := some (-2699) }).dispatcher.hold = false
        ∧ ((hold calm).dispatchAtSnapshot { snap with inner := some (-2600) }).dispatcher.hold = false
        ∧ ((hold calm).dispatchAtSnapshot { snap with inner := some (-2601) }).dispatcher.hold = true
        ∧ ((hold calm).dispatchAtSnapshot { snap with inner := none }).dispatcher.hold = false)
      ∧ (seeing fun s => { s with inner := some (-2301) }).floatHighForwarded.arbiter.slot = none
      ∧ (seeing fun s => { s with inner := some (-2300) }).floatHighForwarded.arbiter.slot = some .u1
      ∧ ({ calm with supervision := { calm.supervision with mode := .held } }).floatHighForwarded.arbiter.slot
        = none
      ∧ ((stopAll .lowWater [.u1, .u2] (running calm)).unit .u2).state = .stopping
      ∧ stopAll .lowWater [.u1, .u3] (running calm) = running calm
      ∧ ((waiting calm).emptyQueue.unit .u3).state = .idle := by decide +kernel

/-! Chapter 6. -/

theorem test_meets_EnqueueAndSlot :
    (calm.unit .u2).state = .idle ∧ ((inState .resting false).part.unit .u2).state = .resting
      ∧ ((inState .running true).part.enqueue .u2 .retry).arbiter.queue = []
      ∧ ((inState .resting false).part.enqueue .u2 .retry).arbiter.slot = some .u2
      ∧ ((inState .resting false).part.enqueue .u2 .hand).arbiter.slot = none
      ∧ calm.roundDue = false ∧ (calm.enqueue .u2 .hand).roundDue = true
      ∧ calm.arbiter.slot ≠ some .u2 ∧ (calm.enqueue .u2 .hand).arbiter.slot = some .u2
      ∧ (waiting calm).headIs .u3 = true ∧ (waiting calm).headIs .u2 = false
      ∧ ((waiting calm).dropEntry .u3).arbiter.queue = [] ∧ (waiting calm).dropEntry .u2 = waiting calm
      ∧ (waiting calm).arbiter.stagger.isSome = true
      ∧ (partOf calm (exec .staggerTimerExpiry ⟨waiting calm, []⟩)).arbiter.slot = some .u3 := by decide +kernel

/-- A station that is not ready, an empty queue, a head-limited head, a head whose load fits exactly and one whose load
is 1 kW too much. -/
theorem test_meets_GrantCheckByRules :
    (let ready (p : Part) : Part := { waiting p with arbiter := { (waiting p).arbiter with stagger := none } };
      let limit (n : Nat) (p : Part) : Part := { p with arbiter := { p.arbiter with effective := n } };
      (waiting calm).stationReady = false ∧ calm.arbiter.queue = []
        ∧ (ready { calm with curves := Six.const ⟨6300, .outerOk, 0, 152, true⟩ }).grantCheck.arbiter.queue = []
        ∧ (ready { calm with curves := Six.const ⟨6300, .outerOk, 0, 152, true⟩ }).headLimiting = true
        ∧ (limit 142 (ready calm)).grantCheck.arbiter.slot = some .u3
        ∧ (limit 141 (ready calm)).grantCheck.arbiter.slot = none) := by decide +kernel

/-- A sum of loads below, above and equal to the committed load; a shed that is over and one that is not. -/
theorem test_meets_LoadsAndReestimation :
    (let load (sum committed effective : Nat) (shed : ShedState) : Part :=
        { (running calm).modUnit .u2 fun pu => { pu with reserved := sum } with
          arbiter := { calm.arbiter with committed := committed, effective := effective, shed := shed } };
      (load 141 142 700 .normal).loadsMoved.arbiter.committed = 141
        ∧ (load 143 142 142 .normal).loadsMoved.arbiter.shed = .shedding
        ∧ (load 142 142 142 .normal).loadsMoved = load 142 142 142 .normal
        ∧ (load 142 142 142 .shedding).shedOver.arbiter.shed = .normal
        ∧ (load 142 142 141 .shedding).shedOver.arbiter.shed = .shedding
        ∧ (load 0 142 700 .normal).reestimate.arbiter.committed = 142) := by decide +kernel

/-- Sheds of an AUTO unit, a HAND unit and a unit in its start sequence, and no target at all. -/
theorem test_meets_Shedding :
    (let exceeded (p : Part) : Part :=
        { p.modUnit .u2 fun pu => { pu with reserved := 142 } with
          arbiter := { p.arbiter with committed := 142, effective := 141, shedDelay := some ⟨10, 9990#32⟩ } };
      ((exceeded (running calm)).shedTest.unit .u2).state = .stopping
        ∧ ((exceeded ((running calm).setAuthority .u2 .hand)).shedTest.unit .u2).state = .stopping
        ∧ ((exceeded (inState .starting false).part).shedTest.unit .u2).state = .resting
        ∧ (exceeded calm).shedTarget = none
        ∧ ((partOf calm (exec .shedDelayTimerExpiry ⟨exceeded (running calm), []⟩)).unit .u2).state = .stopping
        ∧ (partOf calm (exec .shedDelayTimerExpiry
          ⟨{ calm with arbiter := { calm.arbiter with shedDelay := some ⟨10, 0#32⟩ } }, []⟩)
          ).arbiter.shedDelay = none) := by decide +kernel

theorem test_meets_EffectiveBudget :
    (let held (n : Nat) : Part := { calm with arbiter := { calm.arbiter with effective := n } };
      (held 699).reformBudget.arbiter.effective = 700 ∧ (held 701).reformBudget.arbiter.effective = 700
        ∧ (held 700).reformBudget = held 700)
      ∧ calm.arbiter.curtail = false
      ∧ (let low := partOf calm (exec .curtailAsserted ⟨calm, []⟩);
          low.arbiter.curtail = true
            ∧ (partOf calm (exec .curtailReleased ⟨low, []⟩)).arbiter.effective = 700)
      ∧ (partOf calm (exec (.setBudget 1#8 5001#16) ⟨calm, []⟩)).arbiter.effective = 5000
      ∧ (partOf calm (exec (.setBudget 1#8 5000#16) ⟨calm, []⟩)).config.station.stationBudget = 5000 := by
  decide +kernel

/-! Chapter 7. -/

namespace Slice0Tests

/-- The calm part with the gate in this state, neither limit line asserted. -/
def gate (st : SluiceState) : Part :=
  { calm with sluice := ⟨st, .auto, some ⟨60, 9990#32⟩, false, some .margin, false, false, false, false⟩ }

/-- A snapshot with these levels, the outer one OK. -/
def levels (inner outer : Int) : Snapshot := { snap with inner := some inner, outer := some outer }

end Slice0Tests

/-- The open decision at its margin of 200 mm and 1 mm short; every close cause of R122, its margin of 80 mm included. -/
theorem test_meets_GateDecisions :
    ((gate .closed).sluiceAtSnapshot (levels (-2200) (-2400))).sluice.state = .opening
      ∧ ((gate .closed).sluiceAtSnapshot (levels (-2200) (-2399))).sluice.state = .closed
      ∧ ((gate .closed).sluiceAtSnapshot (levels (-2300) (-2900))).sluice.state = .closed
      ∧ ((gate .closing).sluiceAtSnapshot snap).sluice.state = .closing
      ∧ (let open' (f : Part → Part) (s : Snapshot) : Option CloseCause :=
            ((f (gate .opened)).sluiceAtSnapshot s).sluice.cause;
          open' (fun p => { p with sluice := { p.sluice with mode := .keepClosed } }) snap = some .keepClosed
            ∧ open' (fun p => { p with plan := { p.plan with inhibit := true } }) snap = some .inhibit
            ∧ open' id { snap with inner := none } = some .innerAbsent
            ∧ open' id { snap with outerQuality := .held } = some .outerNotOk
            ∧ open' id (levels (-2450) (-3000)) = some .drawdown)
      ∧ ((gate .opened).sluiceAtSnapshot (levels (-2449) (-2528))).sluice.state = .closing
      ∧ ((gate .opened).sluiceAtSnapshot (levels (-2449) (-2529))).sluice.state = .opened
      ∧ ({ gate .opened with sluice := { (gate .opened).sluice with atClosed := true } }.closeGate
        .margin).sluice.state = .closed
      ∧ (({ gate .opened with supervision := { calm.supervision with mains := .lost } }).closeGate
        .margin).sluice.waiting = true := by decide +kernel

theorem test_meets_GateLinesAndTravel :
    (partOf calm (exec .sluiceAtOpenAsserted ⟨gate .opening, []⟩)).sluice.state = .opened
      ∧ (partOf calm (exec .sluiceAtClosedAsserted ⟨gate .closing, []⟩)).sluice.state = .closed
      ∧ (partOf calm (exec .sluiceAtOpenReleased
        ⟨{ gate .fault with sluice := { (gate .fault).sluice with atOpen := true } }, []⟩)).sluice.state = .fault
      ∧ codesOf (exec .sluiceAtClosedReleased ⟨calm, []⟩) = [.sluiceFault]
      ∧ (partOf calm (exec .sluiceAtClosedReleased
        ⟨{ gate .opening with sluice := { (gate .opening).sluice with atClosed := true } }, []⟩)
        ).sluice.state = .opening
      ∧ codesOf (exec .travelTimerExpiry ⟨gate .opening, []⟩) = [.sluiceFault]
      ∧ (gate .opening).sluiceMainsLost.sluice.cause = some .mains
      ∧ (gate .closing).sluiceMainsLost.sluice.waiting = true
      ∧ ((gate .closing).sluiceMainsLost).sluiceMainsOk.sluice.driveClose = true := by decide +kernel

theorem test_meets_SluiceOrders :
    calm.link.receives = true ∧ (gate .fault).arrived.sluice.state = .fault
      ∧ (partOf calm (exec (.sluiceClear 1#8) ⟨gate .fault, []⟩)).sluice.state = .closing
      ∧ (partOf calm (exec (.sluiceClear 1#8) ⟨gate .closed, []⟩)).sluice.state = .closed
      ∧ (partOf calm (exec (.sluiceKeepClosed 1#8) ⟨gate .opening, []⟩)).sluice.cause = some .order
      ∧ (partOf calm (exec (.sluiceKeepClosed 1#8) ⟨gate .fault, []⟩)).sluice.mode = .keepClosed
      ∧ (partOf calm (exec (.sluiceAuto 1#8) ⟨gate .fault, []⟩)).sluice.mode = .auto := by decide +kernel

/-- Starts at the clean threshold and 1 mm below it, and each end of a rake. -/
theorem test_meets_RackCleaner :
    (let fouled (l : Int) : Snapshot := { snap with rackLoss := some l };
      let raking : Part := { calm with cleaner := busy.cleaner };
      let timed : Part := { calm with cleaner := { calm.cleaner with interval := some ⟨3600, 0#32⟩ } };
      let lost (p : Part) : Part := { p with supervision := { p.supervision with mains := .lost } };
      (calm.cleanerAtSnapshot (fouled config.station.cleanThreshold)).cleaner.state = .raking
        ∧ (calm.cleanerAtSnapshot (fouled (config.station.cleanThreshold - 1))).cleaner.state = .idle
        ∧ (partOf calm (exec .intervalTimerExpiry ⟨timed, []⟩)).cleaner.cause = some .interval
        ∧ (partOf calm (exec .intervalTimerExpiry ⟨lost timed, []⟩)).cleaner.interval
          = some ⟨3600, 10000#32⟩
        ∧ (partOf calm (exec (.rakeStart 1#8) ⟨calm, []⟩)).cleaner.cause = some .order
        ∧ (partOf calm (exec (.rakeStart 1#8) ⟨raking, []⟩)).cleaner.cause = some .loss
        ∧ codesOf (exec .rakeDoneAsserted ⟨raking, []⟩) = [.rakeDone]
        ∧ codesOf (exec .rakeDoneAsserted ⟨calm, []⟩) = []
        ∧ (let failed := partOf calm (exec .rakingTimerExpiry ⟨raking, []⟩);
            failed.cleaner.state = .fault
              ∧ (partOf calm (exec (.rakeClear 1#8) ⟨failed, []⟩)).cleaner.state = .idle)
        ∧ raking.cleanerMainsLost.cleaner.state = .idle) := by decide +kernel

/-! Chapter 8. -/

namespace Slice0Tests

/-- The calm part with `n` entries in its plan, ten seconds apart, the first due now. -/
def planned (n : Nat) : Part :=
  { calm with
    plan :=
      { calm.plan with
        entries := (List.range n).map fun i =>
          ⟨BitVec.ofNat 32 (1000000 + 10 * i), -2400, some 150, some 300, none⟩
        planState := .waiting } }

/-- The reason byte of the refusal that a command on `p` answers. -/
def reasonOf (p : Part) (c : Instr) : Option Byte := (partOf p (exec c ⟨p, []⟩)).link.reply[5]?

end Slice0Tests

theorem test_meets_TargetsApplied :
    (let narrow (w : Int) : Part :=
        { calm with config.station.highLevel := config.station.stopLevel + w };
      ((narrow 40).applyTarget 0 900).plan.band = 20
        ∧ ((narrow 40).applyTarget 0 900).plan.target = config.station.stopLevel + 20
        ∧ ((narrow 41).applyTarget 0 900).plan.target = config.station.stopLevel + 21)
      ∧ 40 ≤ config.station.highLevel - config.station.stopLevel ∧ calm.link.receives = true
      ∧ calm.activate = calm
      ∧ (planned 3).plan.entries = [] ++ (planned 3).plan.entries.headD ⟨0#32, 0, none, none, none⟩
        :: (planned 3).plan.entries.drop 1
      ∧ (planned 3).activate.plan.entries.length = 2 ∧ (planned 3).activate.arbiter.effective = 300
      ∧ (let later : Part :=
            { planned 3 with accounting := { calm.accounting with clock := 1000019#32 } };
          later.activate.plan.entries.length = 1)
      ∧ (let last : Part :=
            { planned 3 with accounting := { calm.accounting with clock := 1000020#32 } };
          last.activate.plan.planState = .empty) := by decide +kernel

/-- PLAN_ADD at the clock and a second later, not later than the last entry, and at 31 and 32 entries; positions 31
and 32. -/
theorem test_meets_PlanRequests :
    (let add (t : Nat) : Instr := .planAdd 1#8 ⟨BitVec.ofNat 32 t, 0#16, 0#8, 0#16, 0#16, 0#8⟩;
      reasonOf calm (add 1000000) = some 3#8
        ∧ (partOf calm (exec (add 1000001) ⟨calm, []⟩)).plan.entries.length = 1
        ∧ reasonOf (planned 3) (add 1000020) = some 4#8
        ∧ (partOf calm (exec (add 1000301) ⟨planned 31, []⟩)).plan.entries.length = 32
        ∧ reasonOf (planned 32) (add 1000311) = some 5#8)
      ∧ codesOf (exec (.planClear 1#8) ⟨calm, []⟩) = []
      ∧ codesOf (exec (.planClear 1#8) ⟨planned 1, []⟩) = [.planEmpty]
      ∧ (partOf calm (exec (.askPlan 1#8 31#8) ⟨planned 32, []⟩)).link.reply.length = 34
      ∧ reasonOf (planned 32) (.askPlan 1#8 32#8) = some 3#8 := by decide +kernel

/-! Chapter 9. -/

theorem test_meets_SupervisionAndModes :
    (let mode (m : ControlMode) : Part :=
        { calm with
          supervision := { calm.supervision with mode := m, autonomousSince := some 9000#32 } };
      (mode .held).arrived.supervision.timer = some ⟨300, 10000#32⟩
        ∧ ((mode .autonomous).arrived.events.records.getLast?.bind (·.value)) = some 1000
        ∧ (partOf calm (exec (.setModeHold 1#8) ⟨calm, []⟩)).supervision.mode = .held
        ∧ reasonOf calm (.setModeRelease 1#8) = some 6#8
        ∧ reasonOf (mode .held) (.setModeHold 1#8) = some 6#8
        ∧ (partOf calm (exec (.setModeRelease 1#8) ⟨mode .held, []⟩)).supervision.mode = .supervised)
      ∧ calm.supervision.timer.isSome = true
      ∧ codesOf (exec .supervisionTimerExpiry ⟨calm, []⟩) = [.autonomyEntered] := by decide +kernel

theorem test_meets_MainsLoss :
    calm.supervision.mainsOk = true
      ∧ (running calm).rebuiltRestartSet = [.u2]
      ∧ (codesOf (exec (.mainsOkReleased noCur) ⟨running calm, []⟩)).contains .mainsLost = true := by
  decide +kernel

/-- The return of the mains, and the restart with and without FLOAT_LOW, over an eligible unit, one that is not, and one
that is not IDLE. -/
theorem test_meets_MainsReturnAndRestart :
    (let lost : Part :=
        { calm with
          supervision := { calm.supervision with mains := .lost, mainsOk := false, lostAt := some 9990#32 } };
      let settling (p : Part) : Part :=
        { p with
          supervision :=
            { p.supervision with mains := .settling, settle := some ⟨10, 9990#32⟩, restartSet := [.u1, .u2, .u3] } };
      let some2 : Part := (withRec2 fun r => { r with maxStarts := 0 }).part.modUnit .u3
        fun pu => { pu with state := .resting };
      (codesOf (exec (.mainsOkAsserted noCur) ⟨lost, []⟩)).take 1 = [.mainsBack]
        ∧ (settling (floats false true).part).restart.events.records.getLast?.bind (·.value) = some (-1)
        ∧ (settling some2).restart.events.records.getLast?.bind (·.value) = some 1
        ∧ some2.eligible .u2 false = false ∧ (some2.unit .u3).state ≠ .idle) := by decide +kernel

/-! Chapters 10 and 11. -/

theorem test_meets_CountersAndClock : calm.link.receives = true ∧ calm.arrived.link.receives = true := by
  decide +kernel

/-- Bytes in each receive state: no marker, a marker, the length bytes 240 and 241, a middle byte, a discarded byte, an
overrun. -/
theorem test_meets_BytesReceived :
    (let after (b : Byte) (f : Link → Link) : Link := (partOf calm (exec (.byteReceived b noCur) (withLink f))).link;
      let inside (bs : List Byte) (l : Link) : Link := { l with rx := .inTelegram, buffer := bs, gap := some 20 };
      (after 0x59#8 id).rx = .hunting ∧ (after 0x5A#8 id).rx = .inTelegram
        ∧ (after 240#8 (inside [0x5A#8])).buffer = [0x5A#8, 240#8]
        ∧ (after 241#8 (inside [0x5A#8])).flags.oversize = true
        ∧ (after 1#8 (inside [0x5A#8, 0#8, 1#8, 1#8])).buffer.length = 5
        ∧ (after 1#8 fun l => { inside [] l with discarding := true }).buffer = []
        ∧ (after 0x5A#8 fun l => { l with rx := .replying }).flags.overrun = true
        ∧ (after 0x5B#8 fun l => { l with rx := .replying }).flags.overrun = false) := by decide +kernel

/-- Complete telegrams: a request, a wrong length, an unknown kind, a wrong check. -/
theorem test_meets_LastByteServesTelegram :
    (let ends (bs : List Byte) (b : Byte) : Part :=
        partOf calm (exec (.byteReceived b noCur)
          (withLink fun l => { l with rx := .inTelegram, buffer := bs, gap := some 20 }));
      [0x5A#8, 0x00#8, 0x01#8, 0x01#8, 0xEF#8] ++ [0x8C#8] = telegram 0x01#8 0x01#8 []
        ∧ rowOf .askStation 0x01#8 [] noCur = some (.askStation 0x01#8)
        ∧ (ends (telegram 0x01#8 0x01#8 [7#8]).dropLast ((telegram 0x01#8 0x01#8 [7#8]).getLastD 0#8)
          ).link.reply[5]? = some 2#8
        ∧ (ends (telegram 0x7E#8 0x01#8 []).dropLast ((telegram 0x7E#8 0x01#8 []).getLastD 0#8)
          ).link.reply[5]? = some 1#8
        ∧ (ends [0x5A#8, 0x00#8, 0x01#8, 0x01#8, 0xEF#8] 0x8D#8).link.flags.check = true) := by decide +kernel

/-- Action codes just outside the tables of R184 and a record type outside R198 spell no row and are refused RANGE; the
last codes inside spell one. -/
theorem test_meets_LastByteServesTelegram_range :
    (let ends (k : RequestKind) (body : List Byte) : Part :=
        partOf calm (exec (.byteReceived ((telegram k.byte 0x01#8 body).getLastD 0#8) noCur)
          (withLink fun l =>
            { l with rx := .inTelegram, buffer := (telegram k.byte 0x01#8 body).dropLast, gap := some 20 }));
      let none (k : RequestKind) (body : List Byte) : Prop :=
        k.bodyFits body.length = true ∧ rowOf k 0x01#8 body noCur = .none
          ∧ (ends k body).link.reply[5]? = some 3#8;
      none .unitOrder [2#8, 0#8] ∧ none .unitOrder [2#8, 7#8] ∧ none .sluiceOrder [0#8]
        ∧ none .sluiceOrder [4#8] ∧ none .rakeOrder [0#8] ∧ none .rakeOrder [3#8] ∧ none .setMode [0#8]
        ∧ none .setMode [3#8] ∧ none .writeConfig [4#8, 0#8]
        ∧ rowOf .unitOrder 0x01#8 [2#8, 6#8] noCur = some (.unitClear 0x01#8 2#8)
        ∧ rowOf .writeConfig 0x01#8 [3#8, 6#8] noCur = some (.writeConfigUnit 0x01#8 6#8 [])
        ∧ calm.roundDue = false) := by decide +kernel

theorem test_meets_DamagedAndRefusedTelegrams :
    (let link (f : Link → Link) (c : Instr) : Link := (partOf calm (exec c (withLink f))).link;
      (link id (.oversize 241#8)).discarding = true ∧ (link id .checkFailure).flags.check = true
        ∧ (link (fun l => { l with rx := .inTelegram, gap := some 20 }) .gapTimerExpiry).flags.gap = true
        ∧ (link (fun l => { l with rx := .inTelegram, gap := some 20, discarding := true })
          .gapTimerExpiry).rx = .hunting
        ∧ (link (fun l => { l with rx := .replying, gap := some 20, discarding := true })
          .gapTimerExpiry).rx = .replying
        ∧ (link (fun l => { l with rx := .replying }) .overrun).flags.overrun = true
        ∧ (link (fun l => { l with rx := .replying, discarding := true }) .overrun).flags.overrun = false
        ∧ (link id (.unknownKind 1#8 0x7E#8)).rx = .replying
        ∧ bringsTelegram (.askUnit 1#8 2#8) = true ∧ bringsTelegram .checkFailure = true
        ∧ (link (fun l => { l with rx := .replying }) (.askUnit 1#8 2#8)).flags.overrun = true
        ∧ (link (fun l => { l with rx := .inTelegram, discarding := true }) (.askUnit 1#8 2#8)).reply = [])
      ∧ calm.roundDue = false := by decide +kernel

theorem test_meets_ReplyEndAndRestart :
    (let ended (a : Option AfterReply) : Part :=
        partOf calm (exec (.replyEnd noField) (withLink fun l => { l with rx := .replying, after := a }));
      (ended none).link.rx = .hunting
        ∧ (ended (some (.newSettings ⟨.b9600, .ms5⟩))).link.settings = ⟨.b9600, .ms5⟩
        ∧ (ended (some (.newEnables 0x80#8))).events.alert = true
        ∧ (ended (some .restart)).store.configured = false)
      ∧ calm.arrived.store.state = .idle
      ∧ reasonOf { calm with store := { calm.store with state := .saving } } (.restartPart 1#8) = some 8#8 := by
  decide +kernel

/-- Both timers running and stopped, an entry in the queue, a snapshot in force, a channel that is not VALID. -/
theorem test_meets_StationAndGaugesAsked :
    calm.link.receives = true ∧ calm.supervision.timer.isSome = true ∧ calm.supervision.settle = none
      ∧ calm.gauge.snapshot = some snap
      ∧ (waiting calm).arbiter.queue[0]? = some ⟨.u3, .dispatch, 9000#32⟩
      ∧ (waiting calm).arbiter.queue[1]? = none
      ∧ (waiting calm).stationBody.length = 100
      ∧ ((waiting calm).stationBody.drop 31).take 7 = [1#8, 3#8, 1#8, 0#8, 0#8, 3#8, 0xE8#8]
      ∧ ((gauged (live 11780) (broken) (live 19700) ⟨[], .notFitted⟩ none none).gaugesBody.drop 25).take 5
        = [1#8, 3#8, 1#8, 0x80#8, 0x00#8] := by decide +kernel

/-! Chapters 12 and 13. -/

/-- The least and the greatest value of a record and those next to them; counts 0, 1, 19 and 20 of TAKE_EVENTS; enables
in force and others. -/
theorem test_meets_EventQueueRequests :
    valueFits (-2147483648) = true ∧ valueFits 2147483647 = true ∧ valueFits (-2147483649) = false
      ∧ valueFits 2147483648 = false
      ∧ takeCount 0#8 = 1 ∧ takeCount 1#8 = 1 ∧ takeCount 19#8 = 19 ∧ takeCount 20#8 = 19
      ∧ (0#8 = calm.arrived.config.enables ∧ 1#8 ≠ calm.arrived.config.enables)
      ∧ (appendRecord (List.replicate 48 ⟨0#32, .powerOn, none, false, none⟩) ⟨1#32, .holdOn, none, false, none⟩
        ).length = 48
      ∧ (appendRecord (List.replicate 47 ⟨0#32, .powerOn, none, false, none⟩) ⟨1#32, .holdOn, none, false, none⟩
        ).length = 48 := by decide +kernel

/-- Selectors and lengths at and just outside their ranges, refused structures, taken writes of every record. -/
theorem test_meets_ConfigurationWrites :
    (let offline : Part := (inState .offline false).part;
      let station (f : StationRecord → StationRecord) : Instr :=
        .writeConfigStation 1#8 0#8 (encodeStation (f config.station));
      let unit (f : UnitRecord → UnitRecord) : Instr := .writeConfigUnit 1#8 2#8 (encodeUnit (f rec3));
      (reasonOf calm (.writeConfigLink 1#8 1#8 [0#8, 0#8]) = some 3#8
        ∧ reasonOf calm (.writeConfigGauge 1#8 5#8 []) = some 3#8
        ∧ reasonOf calm (.writeConfigGauge 1#8 4#8 []) = some 2#8
        ∧ reasonOf calm (.writeConfigUnit 1#8 7#8 []) = some 3#8
        ∧ reasonOf calm (.writeConfigUnit 1#8 6#8 []) = some 2#8
        ∧ reasonOf calm (.writeConfigStation 1#8 0#8 []) = some 2#8
        ∧ reasonOf calm (.askConfig 1#8 4#8 0#8) = some 3#8)
      ∧ (reasonOf calm (.writeConfigLink 1#8 0#8 [5#8, 0#8]) = some 3#8
        ∧ (partOf calm (exec (.writeConfigLink 1#8 0#8 [4#8, 3#8]) ⟨calm, []⟩)).link.after
          = some (.newSettings ⟨.b115200, .ms50⟩)
        ∧ (partOf calm (exec (.writeConfigLink 1#8 0#8 [1#8, 2#8]) ⟨calm, []⟩)).link.after = none)
      ∧ (decodeStation (encodeStation config.station) = config.station
        ∧ reasonOf calm (.writeConfigStation 1#8 0#8 (List.replicate 61 2#8)) = some 3#8
        ∧ reasonOf calm (station fun r => { r with rankingMode := .unnamed 2#8 }) = some 3#8
        ∧ (partOf calm (exec (station fun r => { r with highLevel := -2500 }) ⟨calm, []⟩)
          ).config.station.highLevel = -2500
        ∧ reasonOf calm (station fun r => { r with highLevel := -2501 }) = some 3#8
        ∧ reasonOf calm (station fun r => { r with fixedOrder := [1#8, 1#8, 2#8, 3#8, 4#8, 5#8] }) = some 3#8)
      ∧ (reasonOf calm (.writeConfigGauge 1#8 1#8 [0#8, 0#8, 0#8, 0#8, 0#8]) = some 3#8
        ∧ (partOf calm (exec (.writeConfigGauge 1#8 2#8 [0#8, 0#8, 0#8, 0#8, 0#8]) ⟨calm, []⟩)
          ).config.gauges.gb = ⟨false, 0, 100⟩
        ∧ codesOf (exec (.writeConfigGauge 1#8 4#8 [0#8, 0#8, 0#8, 0#8, 0#8])
          ⟨{ calm with gauge := { calm.gauge with rack := .trip } }, []⟩) = [.rackClear])
      ∧ (reasonOf calm (unit id) = some 6#8
        ∧ (partOf calm (exec (unit fun r => { r with maxStarts := 0 }) ⟨offline, []⟩)
          ).config.units.u2.maxStarts = 1
        ∧ reasonOf offline (unit fun r => { r with curve := r.curve.take 1 }) = some 3#8
        ∧ reasonOf offline (unit fun r => { r with outlet := .unnamed 2#8 }) = some 3#8
        ∧ ((partOf calm (exec (unit id)
          ⟨{ offline with gauge := { offline.gauge with snapshot := none } }, []⟩)).curves.get .u2).head = 4350
        ∧ reasonOf offline (.writeConfigUnit 1#8 2#8 (List.replicate 54 2#8)) = some 3#8)) := by decide +kernel

theorem test_meets_SavesOfConfiguration :
    (let saving (n : Nat) : Part :=
        { calm with store := { calm.store with state := .saving, saveCopy := some config, attempts := n } };
      reasonOf (saving 1) (.saveConfig 1#8) = some 8#8
        ∧ reasonOf { calm with store := { calm.store with configured := false } } (.saveConfig 1#8) = some 9#8
        ∧ (partOf calm (exec (.saveConfig 1#8) ⟨calm, []⟩)).store.state = .saving
        ∧ codesOf (exec (.saveAttemptCompletion true) ⟨saving 1, []⟩) = [.storeSaved]
        ∧ (partOf calm (exec (.saveAttemptCompletion false) ⟨saving 2, []⟩)).store.attempts = 3
        ∧ codesOf (exec (.saveAttemptCompletion false) ⟨saving 3, []⟩) = [.storeFailed]) := by decide +kernel

/-- Both resets are commands that take one. -/
theorem test_meets_BothResets :
    takesReset (.powerOnReset noField) ⟨calm, []⟩ false noField
      ∧ takesReset (.replyEnd noField) (withLink fun l => { l with rx := .replying, after := some .restart })
        true noField
      ∧ Part.reset.store.image = [] ∧ Part.reset.freeCount = 0 :=
  ⟨.inl ⟨rfl, rfl⟩, .inr ⟨rfl, rfl, rfl, rfl⟩, rfl, rfl⟩

/-- RUN of unit 2 asserted at a reset that loads a stop timer of 0 s: TRIPPED with STOP_FAIL (R30, R58). -/
theorem test_resetStopTimerOfZero :
    (let p := ((withRec2 fun r => { r with stopTimeout := 0 }).part.modUnit .u2 fun pu =>
          { pu with run := true }).unitAtReset .u2;
      (p.unit .u2).state = .tripped ∧ (p.unit .u2).fault = some .stopFail
        ∧ codesOf (.next ⟨p, []⟩) = [.stopFail]) := by decide +kernel

/-- The test configuration is as taken writes leave it. -/
theorem test_meets_ImageReadsBack : config.asWritten := by
  refine ⟨rfl, ⟨by decide +kernel, by decide +kernel⟩, ?_, ?_⟩
  · intro n; show clampGauge _ = _; cases n <;> decide +kernel
  · intro u; exact ⟨by cases u <;> decide +kernel, by cases u <;> decide +kernel, by cases u <;> decide +kernel⟩

namespace Slice0Tests

/-- The bytes of the test configuration, its baud rate code, ranking mode, first number of the fixed order, and the
outlet and point count of unit 1 naming nothing; and an image of them with its check. -/
def unnamedBytes : List Byte :=
  ((((encodeConfig config).set 0 9#8).set 18 7#8).set 19 9#8 |>.set 84 5#8).set 87 9#8
def unnamedImage : List Byte := unnamedBytes ++ crcBytes unnamedBytes

end Slice0Tests

/-- An image whose check agrees is loaded whatever its codes, and its records read back as they stand. -/
theorem test_imageOfUnnamedCodesLoads :
    loadImage unnamedImage = some (decodeConfig unnamedBytes)
      ∧ encodeLink (decodeConfig unnamedBytes).link = unnamedBytes.take 2
      ∧ encodeStation (decodeConfig unnamedBytes).station = (unnamedBytes.drop 2).take 61
      ∧ encodeUnit (decodeConfig unnamedBytes).units.u1 = (unnamedBytes.drop 83).take 54 :=
  ⟨loadImage_append (by decide +kernel), by decide +kernel, by decide +kernel, by decide +kernel⟩

/-- At a reset with that image the configured mark is set and the image becomes the working copy. -/
theorem test_resetTakesAgreeingImage (st : Store) :
    ({ st with image := unnamedImage }).afterReset.configured = true
      ∧ loadedConfig unnamedImage = decodeConfig unnamedBytes := by
  have h := test_imageOfUnnamedCodesLoads.1
  simp only [Store.afterReset, loadedConfig, h]
  exact ⟨rfl, rfl⟩

theorem test_meets_LayoutsOnTheLink :
    (let e : PlanEntry := ⟨5#32, -32768, some 65535, some 0, some false⟩;
      -32768 ≤ e.target ∧ planEntryOf (decodePlanWords (encodePlanEntry e)) = e)
      ∧ config.station.asWritten ∧ (config.gauges.get .ga).asWritten ∧ (config.units.get .u1).asWritten :=
  ⟨by decide +kernel, test_meets_ImageReadsBack.2.1, test_meets_ImageReadsBack.2.2.1 _,
    test_meets_ImageReadsBack.2.2.2 _⟩

end
end

section
/-! SUPPORT. What the operations of units, start arbiter, gate and cleaner leave as it was: the frame of every
operation made of unit moves, and the six unit controllers after the updates that a unit's own acts are made of. -/

namespace Sys2Proof

@[simp] theorem Six.set_set {α : Type} (x : Six α) (u : UnitNo) (a b : α) : (x.set u a).set u b = x.set u b := by
  cases u <;> rfl

@[simp] theorem UnitNo.ofNumber_number (u : UnitNo) : UnitNo.ofNumber u.number = some u := by
  cases u <;> rfl

end Sys2Proof

namespace Sys2Proof.Machine

/-! ### The six units after an update -/

section
variable (p : Part) (u v : UnitNo)

@[simp] theorem units_modUnit (f : PumpUnit → PumpUnit) :
    (p.modUnit u f).units = p.units.set u (f (p.unit u)) := rfl

@[simp] theorem units_enterUnit (st : UnitState) :
    (p.enterUnit u st).units = p.units.set u ((p.unit u).enter (p.unitRecord u).outlet st) := rfl

@[simp] theorem units_setReserved (kw : Nat) :
    (p.setReserved u kw).units
      = p.units.set u { p.unit u with reserved := if p.mainsGood then kw else 0 } := rfl

@[simp] theorem unit_setReserved_self (kw : Nat) :
    (p.setReserved u kw).unit u = { p.unit u with reserved := if p.mainsGood then kw else 0 } := by
  simp [Part.setReserved]

@[simp] theorem unit_record (c : EventCode) (w : Option UnitNo) (x : Option Int) :
    (p.record c w x).unit v = p.unit v := rfl

@[simp] theorem unit_dropEntry : (p.dropEntry u).unit v = p.unit v := rfl

@[simp] theorem unit_setQueue (q : List QueueEntry) : (p.setQueue q).unit v = p.unit v := rfl

@[simp] theorem unit_sumLoads : p.sumLoads.unit v = p.unit v := rfl

@[simp] theorem unit_setEnabled (w : UnitNo) (b : Bool) : (p.setEnabled w b).unit v = p.unit v := rfl

@[simp] theorem unit_leaveRestartSet (w : UnitNo) : (p.leaveRestartSet w).unit v = p.unit v := rfl

@[simp] theorem units_freeSlot : (p.freeSlot u).units = p.units := by unfold Part.freeSlot; split <;> rfl

@[simp] theorem unit_freeSlot : (p.freeSlot u).unit v = p.unit v := Part.unit_of_units (units_freeSlot p u) v

@[simp] theorem queue_freeSlot : (p.freeSlot u).arbiter.queue = p.arbiter.queue := by
  unfold Part.freeSlot; split <;> rfl

@[simp] theorem roundDue_freeSlot : (p.freeSlot u).roundDue = p.roundDue := by
  unfold Part.freeSlot; split <;> rfl

@[simp] theorem config_freeSlot : (p.freeSlot u).config = p.config := by unfold Part.freeSlot; split <;> rfl

@[simp] theorem accounting_freeSlot : (p.freeSlot u).accounting = p.accounting := by
  unfold Part.freeSlot; split <;> rfl

@[simp] theorem supervision_freeSlot : (p.freeSlot u).supervision = p.supervision := by
  unfold Part.freeSlot; split <;> rfl

@[simp] theorem unitRecord_modUnit (f : PumpUnit → PumpUnit) : (p.modUnit u f).unitRecord v = p.unitRecord v := rfl

@[simp] theorem unitRecord_record (c : EventCode) (w : Option UnitNo) (x : Option Int) :
    (p.record c w x).unitRecord v = p.unitRecord v := rfl

@[simp] theorem unitRecord_enterUnit (st : UnitState) : (p.enterUnit u st).unitRecord v = p.unitRecord v := rfl

@[simp] theorem unitRecord_setReserved (kw : Nat) : (p.setReserved u kw).unitRecord v = p.unitRecord v := rfl

@[simp] theorem unitRecord_freeSlot : (p.freeSlot u).unitRecord v = p.unitRecord v :=
  Part.unitRecord_of_config (config_freeSlot p u) v

theorem unit_setReserved (kw : Nat) :
    (p.setReserved u kw).unit v
      = if v = u then { p.unit u with reserved := if p.mainsGood then kw else 0 } else p.unit v :=
  Part.unit_modUnit p u v _

/-- Two changes of one unit are one change. -/
theorem modUnit_modUnit (f g : PumpUnit → PumpUnit) :
    (p.modUnit u f).modUnit u g = p.modUnit u fun pu => g (f pu) := by
  simp [Part.modUnit]

end

/-! ### A consultation of the start history -/

/-- A consultation prunes the history of its unit and decides the mark of a reported limit; the other units, and
whatever else a unit holds, stay. -/
theorem units_consult (p : Part) (u : UnitNo) (own : Bool) :
    ∃ b, (p.consult u own).units
      = p.units.set u { p.unit u with history := p.historyNow u, limitReported := b } := by
  unfold Part.consult
  simp only
  split
  · exact ⟨false, by simp⟩
  · split
    · exact ⟨true, by simp⟩
    · exact ⟨(p.unit u).limitReported, by simp⟩

theorem unit_consult_of_ne (p : Part) {u v : UnitNo} (own : Bool) (h : v ≠ u) :
    (p.consult u own).unit v = p.unit v := by
  obtain ⟨b, hb⟩ := units_consult p u own
  simp [Part.unit, hb, Six.get_set, h]

@[simp] theorem arbiter_consult (p : Part) (u : UnitNo) (own : Bool) : (p.consult u own).arbiter = p.arbiter := by
  unfold Part.consult
  simp only
  split
  · rfl
  · split <;> rfl

@[simp] theorem roundDue_consult (p : Part) (u : UnitNo) (own : Bool) : (p.consult u own).roundDue = p.roundDue := by
  unfold Part.consult
  simp only
  split
  · rfl
  · split <;> rfl

@[simp] theorem state_consult (p : Part) (u v : UnitNo) (own : Bool) :
    ((p.consult u own).unit v).state = (p.unit v).state := by
  obtain ⟨b, hb⟩ := units_consult p u own
  by_cases e : v = u
  · subst e; simp [Part.unit, hb]
  · simp [Part.unit, hb, Six.get_set, e]

@[simp] theorem retryPending_consult (p : Part) (u v : UnitNo) (own : Bool) :
    ((p.consult u own).unit v).retryPending = (p.unit v).retryPending := by
  obtain ⟨b, hb⟩ := units_consult p u own
  by_cases e : v = u
  · subst e; simp [Part.unit, hb]
  · simp [Part.unit, hb, Six.get_set, e]

/-! ### Units that an operation does not name -/

section
variable (p : Part) {u v : UnitNo} (hv : v ≠ u)
include hv

theorem unit_restOver_of_ne : (p.restOver u).unit v = p.unit v := by
  have join : ∀ q : Part, (q.joinQueue u .retry).unit v = q.unit v := fun q =>
    (Part.unit_enterUnit _ u v .queued).trans (if_neg hv)
  unfold Part.restOver
  simp only
  split
  · split <;> simp [join, Part.unit_enterUnit, unit_consult_of_ne, Part.unit_modUnit, hv]
  · simp [Part.unit_enterUnit, hv]

theorem unit_startFailed_of_ne (c : EventCode) (f : FaultCode) : (p.startFailed u c f).unit v = p.unit v := by
  unfold Part.startFailed
  simp only
  split <;>
    simp [Part.enterResting, Part.tripUnit, Part.unit_modUnit, Part.unit_enterUnit, unit_setReserved, hv]

theorem unit_startIfZero_of_ne : (p.startIfZero u).unit v = p.unit v := by
  have failed : ∀ c f, (p.failAtGrant u c f).unit v = p.unit v := by
    intro c f
    unfold Part.failAtGrant
    simp only
    split
    · rw [unit_restOver_of_ne _ hv, unit_sumLoads, unit_startFailed_of_ne p hv]
    · rw [unit_sumLoads, unit_startFailed_of_ne p hv]
  unfold Part.startIfZero
  split
  · split
    · exact failed _ _
    · rfl
  · split
    · exact failed _ _
    · rfl
  all_goals rfl

theorem unit_takeGrant_of_ne : (p.takeGrant u).unit v = p.unit v := by
  unfold Part.takeGrant
  simp only
  split
  · simp [Part.unit_modUnit, Part.unit_enterUnit, hv]
  · simp [Part.unit, Part.enterStarting, Part.modUnit, Part.enterUnit, Six.get_set, hv]

theorem unit_grant_of_ne : (p.grant u).unit v = p.unit v := by
  unfold Part.grant
  simp only
  rw [unit_startIfZero_of_ne _ hv, unit_takeGrant_of_ne _ hv, unit_sumLoads, unit_setReserved, if_neg hv]
  rfl

end

/-- A grant check touches only units of the queue's entries (R102 to R105). -/
theorem unit_grantFrom_of_noEntry {v : UnitNo} (q : List QueueEntry) : ∀ (p : Part), (∀ e ∈ q, e.unit ≠ v) →
    (grantFrom q p).unit v = p.unit v := by
  induction q with
  | nil => exact fun _ _ => rfl
  | cons e rest ih =>
    intro p hq
    have he : v ≠ e.unit := (hq e (by simp)).symm
    unfold grantFrom
    split
    · rw [ih _ fun x hx => hq x (by simp [hx])]
      simp [Part.unit_enterUnit, he]
    · split
      · rw [unit_grant_of_ne _ he]
        rfl
      · rfl

theorem unit_grantCheck_of_noEntry {p : Part} {v : UnitNo} (h : ∀ e ∈ p.arbiter.queue, e.unit ≠ v) :
    p.grantCheck.unit v = p.unit v := by
  unfold Part.grantCheck
  split
  · exact unit_grantFrom_of_noEntry _ p h
  · rfl

@[simp] theorem units_shedOver (p : Part) : p.shedOver.units = p.units := by unfold Part.shedOver; split <;> rfl

@[simp] theorem queue_shedOver (p : Part) : p.shedOver.arbiter.queue = p.arbiter.queue := by
  unfold Part.shedOver; split <;> rfl

theorem grantCheck_of_emptyQueue {p : Part} (h : p.arbiter.queue = []) : p.grantCheck = p := by
  unfold Part.grantCheck
  split
  · rw [h, grantFrom]
  · rfl

theorem queue_loadsFell_of_emptyQueue {p : Part} (h : p.arbiter.queue = []) :
    p.loadsFell.arbiter.queue = p.arbiter.queue := by
  unfold Part.loadsFell
  split
  · rw [grantCheck_of_emptyQueue (p := p.sumLoads.shedOver) ((queue_shedOver _).trans h), queue_shedOver]
    rfl
  · rfl

theorem unit_loadsFell_of_noEntry {p : Part} {v : UnitNo} (h : ∀ e ∈ p.arbiter.queue, e.unit ≠ v) :
    p.loadsFell.unit v = p.unit v := by
  unfold Part.loadsFell
  split
  · have hq : ∀ e ∈ p.sumLoads.shedOver.arbiter.queue, e.unit ≠ v := by
      rw [queue_shedOver]
      exact h
    rw [unit_grantCheck_of_noEntry hq, Part.unit_of_units (units_shedOver _), unit_sumLoads]
  · rfl

/-! ### The frame of the unit moves -/

/-- `q` differs from `p` in units, start arbiter, dispatch controller, gate, cleaner, estimator, curves and records at
most, and counts starts: what the blocks may do when they act on a snapshot. -/
structure BlocksOnly (p q : Part) : Prop where
  gauge : q.gauge = p.gauge
  plan : q.plan = p.plan
  supervision : q.supervision = p.supervision
  clock : q.accounting.clock = p.accounting.clock
  uptime : q.accounting.uptime = p.accounting.uptime
  link : q.link = p.link
  store : q.store = p.store
  config : q.config = p.config

namespace BlocksOnly

theorem refl (p : Part) : BlocksOnly p p := by constructor <;> rfl

theorem trans {p q r : Part} (a : BlocksOnly p q) (b : BlocksOnly q r) : BlocksOnly p r where
  gauge := b.gauge.trans a.gauge
  plan := b.plan.trans a.plan
  supervision := b.supervision.trans a.supervision
  clock := b.clock.trans a.clock
  uptime := b.uptime.trans a.uptime
  link := b.link.trans a.link
  store := b.store.trans a.store
  config := b.config.trans a.config

/-- Every operation of unit controllers and start arbiter stays within the frame. -/
theorem unitMoves : UnitMoves BlocksOnly where
  refl := refl
  trans := trans
  arbiter _ _ _ _ := by constructor <;> rfl
  record _ _ _ _ := by constructor <;> rfl
  roundDue _ _ := by constructor <;> rfl
  enter _ _ _ := by constructor <;> rfl
  starting _ _ := by constructor <;> rfl
  priming _ _ _ := by constructor <;> rfl
  resting _ _ := by constructor <;> rfl
  stopping _ _ := by constructor <;> rfl
  quiet _ _ _ _ := by constructor <;> rfl

theorem unitRecord {p q : Part} (h : BlocksOnly p q) (u : UnitNo) : q.unitRecord u = p.unitRecord u :=
  Part.unitRecord_of_config h.config u

end BlocksOnly

/-! ### The frame of gate and cleaner -/

/-- `q` differs from `p` in gate, cleaner, the estimator's mark and the records at most. -/
structure GateAndCleanerOnly (p q : Part) : Prop where
  units : q.units = p.units
  arbiter : q.arbiter = p.arbiter
  roundDue : q.roundDue = p.roundDue
  blocks : BlocksOnly p q

namespace GateAndCleanerOnly

theorem refl (p : Part) : GateAndCleanerOnly p p := ⟨rfl, rfl, rfl, .refl p⟩

theorem trans {p q r : Part} (a : GateAndCleanerOnly p q) (b : GateAndCleanerOnly q r) : GateAndCleanerOnly p r where
  units := b.units.trans a.units
  arbiter := b.arbiter.trans a.arbiter
  roundDue := b.roundDue.trans a.roundDue
  blocks := a.blocks.trans b.blocks

/-- A change of gate, estimator and cleaner alone. -/
theorem update (p : Part) (g : Sluice) (e : Estimator) (c : Cleaner) :
    GateAndCleanerOnly p { p with sluice := g, estimator := e, cleaner := c } :=
  ⟨rfl, rfl, rfl, by constructor <;> rfl⟩

theorem record (p : Part) (c : EventCode) (u : Option UnitNo) (v : Option Int) :
    GateAndCleanerOnly p (p.record c u v) := ⟨rfl, rfl, rfl, by constructor <;> rfl⟩

theorem testArrival (p : Part) : GateAndCleanerOnly p p.testArrival := by
  unfold Part.testArrival
  split
  · split
    · exact (update p _ _ p.cleaner).trans (record _ _ _ _)
    · exact refl p
  · split
    · exact (update p _ _ p.cleaner).trans (record _ _ _ _)
    · exact refl p
  all_goals exact refl p

theorem closeGate (p : Part) (c : CloseCause) : GateAndCleanerOnly p (p.closeGate c) := by
  unfold Part.closeGate
  simp only
  refine trans ?_ (testArrival _)
  split <;> exact update p _ _ p.cleaner

theorem openGate (p : Part) : GateAndCleanerOnly p p.openGate :=
  trans (update p _ _ p.cleaner) (testArrival _)

theorem sluiceAtSnapshot (p : Part) (snap : Snapshot) : GateAndCleanerOnly p (p.sluiceAtSnapshot snap) := by
  unfold Part.sluiceAtSnapshot
  split
  · split
    · exact openGate p
    · exact refl p
  · split
    · exact closeGate p _
    · exact refl p
  · split
    · exact closeGate p _
    · exact refl p
  all_goals exact refl p

theorem sluiceMainsLost (p : Part) : GateAndCleanerOnly p p.sluiceMainsLost := by
  unfold Part.sluiceMainsLost
  split
  · exact closeGate p _
  · split
    · exact refl p
    · exact update p _ _ p.cleaner
  all_goals exact refl p

theorem sluiceMainsOk (p : Part) : GateAndCleanerOnly p p.sluiceMainsOk := by
  unfold Part.sluiceMainsOk
  split
  · exact update p _ _ p.cleaner
  · exact refl p

theorem limitMoved (p : Part) (b : Bool) : GateAndCleanerOnly p (p.limitMoved b) := by
  unfold Part.limitMoved
  split
  · exact trans (record p _ _ _) (closeGate _ _)
  · exact testArrival p

theorem startRake (p : Part) (c : RakeCause) : GateAndCleanerOnly p (p.startRake c) := update p p.sluice p.estimator _

theorem cleanerIdle (p : Part) : GateAndCleanerOnly p p.cleanerIdle := update p p.sluice p.estimator _

theorem cleanerAtSnapshot (p : Part) (snap : Snapshot) : GateAndCleanerOnly p (p.cleanerAtSnapshot snap) := by
  unfold Part.cleanerAtSnapshot
  split
  · exact startRake p _
  · exact refl p

theorem cleanerMainsLost (p : Part) : GateAndCleanerOnly p p.cleanerMainsLost := by
  unfold Part.cleanerMainsLost
  split
  · exact cleanerIdle p
  · exact refl p

end GateAndCleanerOnly

/-! ### The frame of the blocks at a snapshot -/

namespace BlocksOnly

/-- A change of curves and dispatch controller alone. -/
theorem curvesAndDispatcher (p : Part) (c : Six Derived) (f : Nat) (d : Dispatcher) :
    BlocksOnly p { p with curves := c, fallbackInUse := f, dispatcher := d } := by constructor <;> rfl

theorem rackCleared (p : Part) (old new : RackState) : BlocksOnly p (p.rackCleared old new) := by
  unfold Part.rackCleared
  split
  · exact unitMoves.grantCheck p
  · exact refl p

theorem protect (p : Part) : BlocksOnly p p.protect :=
  trans (unitMoves.protectActs p) (curvesAndDispatcher _ _ _ _)

theorem dispatchAtSnapshot (p : Part) (snap : Snapshot) : BlocksOnly p (p.dispatchAtSnapshot snap) := by
  unfold Part.dispatchAtSnapshot
  split
  · unfold Part.stopLevelProtection
    split
    · exact protect p
    · exact trans (protect p) (unitMoves.record _ _ _ _)
  · split
    · exact trans (curvesAndDispatcher p p.curves p.fallbackInUse _) (unitMoves.grantCheck _)
    · exact refl p

theorem unitAtSnapshot (p : Part) (snap : Snapshot) (u : UnitNo) : BlocksOnly p (p.unitAtSnapshot snap u) := by
  have dwell : BlocksOnly p (p.modUnit u fun pu => { pu with dwellTimer := p.dwellAfter u snap }) := by
    constructor <;> rfl
  unfold Part.unitAtSnapshot
  split
  · simp only
    split
    · exact trans dwell (unitMoves.dwellExpired _ u)
    · exact dwell
  · exact refl p

theorem unitsAtSnapshot (snap : Snapshot) (us : List UnitNo) (p : Part) :
    BlocksOnly p (unitsAtSnapshot snap us p) := by
  induction us generalizing p with
  | nil => exact refl p
  | cons u us ih => exact trans (unitAtSnapshot p snap u) (ih _)

/-- The blocks that act on a snapshot leave gauge unit, plan, supervision, clock and uptime, link, store and working
copy as they were. -/
theorem blocksAct (p : Part) (old : RackState) (snap : Snapshot) : BlocksOnly p (p.blocksAct old snap) := by
  have curves : BlocksOnly p (p.formCurves snap) := curvesAndDispatcher p _ _ p.dispatcher
  unfold Part.blocksAct
  exact ((((curves.trans (rackCleared _ _ _)).trans (dispatchAtSnapshot _ snap)).trans
    (GateAndCleanerOnly.sluiceAtSnapshot _ snap).blocks).trans
    (GateAndCleanerOnly.cleanerAtSnapshot _ snap).blocks).trans (unitsAtSnapshot snap _ _)

end BlocksOnly

/-! ### An immediate round that is not due -/

theorem takeDueRound_of_notDue {p : Part} (h : p.roundDue = false) (cur : Currents) : p.takeDueRound cur = p := by
  simp [Part.takeDueRound, h]

theorem takeUnseenRound_of_notDue {p : Part} (h : p.roundDue = false) : p.takeUnseenRound = p := by
  simp [Part.takeUnseenRound, h]

@[simp] theorem roundDue_round (p : Part) (cur : Currents) : (p.round cur).roundDue = false := rfl

@[simp] theorem roundDue_immediateRound (p : Part) (cur : Currents) : (p.immediateRound cur).roundDue = false := rfl

@[simp] theorem roundDue_takeDueRound (p : Part) (cur : Currents) : (p.takeDueRound cur).roundDue = false := by
  unfold Part.takeDueRound
  split
  · rfl
  · rename_i h
    simpa using h

@[simp] theorem roundDue_takeUnseenRound (p : Part) : p.takeUnseenRound.roundDue = false := by
  unfold Part.takeUnseenRound
  split
  · rfl
  · rename_i h
    simpa using h

end Sys2Proof.Machine
end

section
/-! SUPPORT. What a unit controller holds fits its state (R36 to R48): the invariant of units and start queue that
every operation keeps, one lemma for each operation. -/

namespace Sys2Proof.Machine

/-! ### One unit -/

/-- The unit holds no fault, no stop origin, no pending retry and no load, and its RUN is released. -/
structure PumpUnit.HoldsNothing (pu : PumpUnit) : Prop where
  fault : pu.fault = none
  stopOrigin : pu.stopOrigin = none
  retryPending : pu.retryPending = false
  run : pu.run = false
  reserved : pu.reserved = 0

namespace PumpUnit

/-- A unit that fits its books holds nothing in OFFLINE, IDLE and QUEUED. -/
theorem booksFit.holdsNothing {pu : PumpUnit} (h : pu.booksFit)
    (hs : pu.state = .offline ∨ pu.state = .idle ∨ pu.state = .queued) : pu.HoldsNothing := by
  obtain ⟨hf, ho, hr, hrun, hl, -⟩ := h
  have hd : pu.delivering = false := by rcases hs with e | e | e <;> simp [delivering, e]
  have hi : pu.inStart = false := by rcases hs with e | e | e <;> simp [inStart, e]
  constructor
  · rcases hs with e | e | e <;> simpa [e] using hf
  · rcases hs with e | e | e <;> simpa [e] using ho
  · rcases hs with e | e | e <;> simpa [e] using hr
  · simpa [hd] using hrun
  · simpa [hd, hi] using hl

/-- The same in RESTING, but for the pending retry. -/
theorem booksFit.holdsNothing_of_resting {pu : PumpUnit} (h : pu.booksFit) (hs : pu.state = .resting)
    (hr : pu.retryPending = false) : pu.HoldsNothing := by
  obtain ⟨hf, ho, -, hrun, hl, -⟩ := h
  have hd : pu.delivering = false := by simp [delivering, hs]
  exact ⟨by simpa [hs] using hf, by simpa [hs] using ho, hr, by simpa [hd] using hrun,
    by simpa [hd, inStart, hs] using hl⟩

/-- A unit that holds nothing fits its books in every state but RUNNING, STOPPING and TRIPPED. -/
theorem HoldsNothing.booksFit_enter {pu : PumpUnit} (h : pu.HoldsNothing) (o : Outlet) {st : UnitState}
    (h1 : st ≠ .running) (h2 : st ≠ .stopping) (h3 : st ≠ .tripped) : (pu.enter o st).booksFit := by
  simp [booksFit, enter, keepTimer, h.fault, h.stopOrigin, h.retryPending, h.run, h.reserved, h1, h2, h3]

/-- In the start sequence a unit that fits its books holds its load at most. -/
theorem booksFit.of_inStart {pu : PumpUnit} (h : pu.booksFit) (hs : pu.inStart = true) :
    pu.fault = none ∧ pu.stopOrigin = none ∧ pu.retryPending = false ∧ pu.run = false := by
  obtain ⟨hf, ho, hr, hrun, -, -⟩ := h
  have e : pu.state = .priming ∨ pu.state = .starting := by
    unfold inStart at hs; split at hs <;> simp_all
  have hd : pu.delivering = false := by rcases e with e | e <;> simp [delivering, e]
  refine ⟨?_, ?_, ?_, by simpa [hd] using hrun⟩
  · rcases e with e | e <;> simpa [e] using hf
  · rcases e with e | e <;> simpa [e] using ho
  · rcases e with e | e <;> simpa [e] using hr

end PumpUnit

/-! ### Units and queue -/

/-- Every unit's books fit its state, and the units of the queue's entries are QUEUED, none twice. -/
structure Part.BooksHold (p : Part) : Prop where
  fit : ∀ u : UnitNo, (p.unit u).booksFit
  queued : ∀ e ∈ p.arbiter.queue, (p.unit e.unit).state = .queued
  once : (p.arbiter.queue.map (·.unit)).Nodup

/-- `q` has the units, the queue and the mark of a due round of `p`. -/
structure UnitsAside (p q : Part) : Prop where
  units : q.units = p.units
  queue : q.arbiter.queue = p.arbiter.queue
  roundDue : q.roundDue = p.roundDue

theorem UnitsAside.trans {p q r : Part} (a : UnitsAside p q) (b : UnitsAside q r) : UnitsAside p r :=
  ⟨b.units.trans a.units, b.queue.trans a.queue, b.roundDue.trans a.roundDue⟩

theorem UnitsAside.refl (p : Part) : UnitsAside p p := ⟨rfl, rfl, rfl⟩

theorem GateAndCleanerOnly.unitsAside {p q : Part} (h : GateAndCleanerOnly p q) : UnitsAside p q :=
  ⟨h.units, by rw [h.arbiter], h.roundDue⟩

namespace Part.BooksHold

/-- Units and queue decide whether the books hold. -/
theorem congr {p q : Part} (h : p.BooksHold) (hu : q.units = p.units) (hq : q.arbiter.queue = p.arbiter.queue) :
    q.BooksHold := by
  refine ⟨fun u => ?_, fun e he => ?_, ?_⟩
  · rw [Part.unit_of_units hu]; exact h.fit u
  · rw [hq] at he; rw [Part.unit_of_units hu]; exact h.queued e he
  · rw [hq]; exact h.once

theorem aside {p q : Part} (h : p.BooksHold) (a : UnitsAside p q) : q.BooksHold := h.congr a.units a.queue

/-- One unit changes and fits its books; the queue keeps its order, and an entry of that unit stands in it only where
the unit is QUEUED. -/
theorem setUnit {p q : Part} (h : p.BooksHold) (u : UnitNo) (hu : ∀ v, v ≠ u → q.unit v = p.unit v)
    (hq : q.arbiter.queue.Sublist p.arbiter.queue) (hf : (q.unit u).booksFit)
    (hs : ∀ e ∈ q.arbiter.queue, e.unit = u → (q.unit u).state = .queued) : q.BooksHold := by
  refine ⟨fun v => ?_, fun e he => ?_, h.once.sublist (hq.map _)⟩
  · by_cases ev : v = u
    · exact ev ▸ hf
    · exact hu v ev ▸ h.fit v
  · by_cases ev : e.unit = u
    · exact ev ▸ hs e he ev
    · exact hu _ ev ▸ h.queued e (hq.subset he)

/-- One unit that is not QUEUED changes and fits its books. -/
theorem changeUnit {p q : Part} (h : p.BooksHold) (u : UnitNo) (hu : ∀ v, v ≠ u → q.unit v = p.unit v)
    (hq : q.arbiter.queue = p.arbiter.queue) (hf : (q.unit u).booksFit) (hs : (p.unit u).state ≠ .queued) :
    q.BooksHold := by
  refine h.setUnit u hu (hq ▸ List.Sublist.refl _) hf fun e he eu => ?_
  rw [hq] at he
  exact absurd (eu ▸ h.queued e he) hs

/-- One unit changes, not in its state, and fits its books. -/
theorem changeInState {p q : Part} (h : p.BooksHold) (u : UnitNo) (hu : ∀ v, v ≠ u → q.unit v = p.unit v)
    (hq : q.arbiter.queue = p.arbiter.queue) (hf : (q.unit u).booksFit) (hs : (q.unit u).state = (p.unit u).state) :
    q.BooksHold := by
  refine h.setUnit u hu (hq ▸ List.Sublist.refl _) hf fun e he eu => ?_
  rw [hq] at he
  exact hs.trans (eu ▸ h.queued e he)

/-- The entry of a unit leaves the queue as the unit changes. -/
theorem leaveQueue {p q : Part} (h : p.BooksHold) (u : UnitNo) (hu : ∀ v, v ≠ u → q.unit v = p.unit v)
    (hq : q.arbiter.queue = p.arbiter.queue.filter fun e => e.unit != u) (hf : (q.unit u).booksFit) :
    q.BooksHold := by
  refine h.setUnit u hu (hq ▸ List.filter_sublist) hf fun e he eu => ?_
  rw [hq, List.mem_filter] at he
  simp [eu] at he

/-- A change of one unit that moves neither its state nor its books. -/
theorem modUnit {p : Part} (h : p.BooksHold) (u : UnitNo) {f : PumpUnit → PumpUnit}
    (hs : (f (p.unit u)).state = (p.unit u).state) (hf : (f (p.unit u)).booksFit) : (p.modUnit u f).BooksHold :=
  h.changeInState u (fun v hv => by simp [Part.unit_modUnit, hv]) rfl (by simpa using hf) (by simpa using hs)

/-- A unit that is not QUEUED enters a state and fits its books. -/
theorem enterUnit {p : Part} (h : p.BooksHold) (u : UnitNo) {st : UnitState} (hs : (p.unit u).state ≠ .queued)
    (hf : ((p.unit u).enter (p.unitRecord u).outlet st).booksFit) : (p.enterUnit u st).BooksHold :=
  h.changeUnit u (fun v hv => by simp [Part.unit_enterUnit, hv]) rfl (by simpa using hf) hs

/-- A unit that is not QUEUED has no entry. -/
theorem notQueued {p : Part} (h : p.BooksHold) {u : UnitNo} (hs : (p.unit u).state ≠ .queued) :
    ∀ e ∈ p.arbiter.queue, e.unit ≠ u := fun e he eu => hs (eu ▸ h.queued e he)

/-- The unit at the head of the queue is QUEUED. -/
theorem queued_of_headIs {p : Part} (h : p.BooksHold) {u : UnitNo} (hh : p.headIs u = true) :
    (p.unit u).state = .queued := by
  unfold Part.headIs at hh
  cases hq : p.arbiter.queue with
  | nil => simp [hq] at hh
  | cons e rest =>
    have eu : e.unit = u := by simpa [hq] using hh
    exact eu ▸ h.queued e (by simp [hq])

/-! ### The start sequence -/

theorem consult {p : Part} (h : p.BooksHold) (u : UnitNo) (own : Bool) : (p.consult u own).BooksHold := by
  have fit : ((p.consult u own).unit u).booksFit := by
    obtain ⟨b, hb⟩ := units_consult p u own
    have e : (p.consult u own).unit u = { p.unit u with history := p.historyNow u, limitReported := b } := by
      simp [Part.unit, hb]
    rw [e]
    exact h.fit u
  exact h.changeInState u (fun v hv => unit_consult_of_ne p own hv) (by simp) fit (by simp)

theorem freeSlot {p : Part} (h : p.BooksHold) (u : UnitNo) : (p.freeSlot u).BooksHold := h.congr (by simp) (by simp)

theorem sumLoads {p : Part} (h : p.BooksHold) : p.sumLoads.BooksHold := h.congr rfl rfl

theorem record {p : Part} (h : p.BooksHold) (c : EventCode) (u : Option UnitNo) (v : Option Int) :
    (p.record c u v).BooksHold := h.congr rfl rfl

/-- An entry joins for a unit that holds nothing and is not QUEUED. -/
theorem joinQueue {p : Part} (h : p.BooksHold) {u : UnitNo} (o : QueueOrigin) (hn : (p.unit u).HoldsNothing)
    (hs : (p.unit u).state ≠ .queued) : (p.joinQueue u o).BooksHold := by
  have unit : ∀ v, (p.joinQueue u o).unit v
      = if v = u then (p.unit u).enter (p.unitRecord u).outlet .queued else p.unit v :=
    fun v => Part.unit_enterUnit _ u v .queued
  have queue : (p.joinQueue u o).arbiter.queue = p.arbiter.queue ++ [⟨u, o, p.accounting.uptime⟩] := rfl
  refine ⟨fun v => ?_, fun e he => ?_, ?_⟩
  · rw [unit]; split
    · exact hn.booksFit_enter _ (by simp) (by simp) (by simp)
    · exact h.fit v
  · rw [queue, List.mem_append, List.mem_singleton] at he
    rw [unit]
    split
    · rfl
    · rename_i ne
      rcases he with he | rfl
      · exact h.queued e he
      · exact absurd rfl ne
  · rw [queue, List.map_append, List.nodup_append]
    refine ⟨h.once, by simp, fun v hv w hw => ?_⟩
    obtain ⟨e, he, rfl⟩ := List.mem_map.mp hv
    rw [List.map_singleton, List.mem_singleton] at hw
    exact hw ▸ h.notQueued hs e he

theorem restOver {p : Part} (h : p.BooksHold) {u : UnitNo} (hs : (p.unit u).state = .resting) :
    (p.restOver u).BooksHold := by
  unfold Part.restOver
  split
  · simp only
    have h1 : (p.modUnit u fun pu => { pu with retryPending := false, restTimer := none }).BooksHold := by
      obtain ⟨hf, ho, -, hrun, hl, ht⟩ := h.fit u
      exact h.modUnit u rfl ⟨hf, ho, by simp, hrun, hl, ht⟩
    have s1 : ((p.modUnit u fun pu => { pu with retryPending := false, restTimer := none }).unit u).state
        = .resting := by simp [hs]
    have r1 : ((p.modUnit u fun pu => { pu with retryPending := false, restTimer := none }).unit u).retryPending
        = false := by simp
    generalize (p.modUnit u fun pu => { pu with retryPending := false, restTimer := none }) = p1 at h1 s1 r1 ⊢
    have h2 := h1.consult u true
    have s2 : ((p1.consult u true).unit u).state = .resting := by simp [s1]
    have n2 : ((p1.consult u true).unit u).HoldsNothing :=
      (h2.fit u).holdsNothing_of_resting s2 ((retryPending_consult p1 u u true).trans r1)
    split
    · exact h2.joinQueue _ n2 (by simp [s2])
    · exact h2.enterUnit u (by simp [s2]) (n2.booksFit_enter _ (by simp) (by simp) (by simp))
  · rename_i hr
    exact h.enterUnit u (by simp [hs])
      (((h.fit u).holdsNothing_of_resting hs (by simpa using hr)).booksFit_enter _ (by simp) (by simp) (by simp))

/-- A failed start gives up load and slot, and the unit rests for a retry where one is left (R36). -/
theorem startFailed {p : Part} (h : p.BooksHold) {u : UnitNo} (hs : (p.unit u).inStart = true) (c : EventCode)
    (f : FaultCode) :
    (p.startFailed u c f).BooksHold
      ∧ (0 < (p.unit u).retriesLeft → ((p.startFailed u c f).unit u).state = .resting) := by
  obtain ⟨hf, ho, hr, hrun⟩ := (h.fit u).of_inStart hs
  have nq : (p.unit u).state ≠ .queued := fun e => by simp [PumpUnit.inStart, e] at hs
  unfold Part.startFailed
  simp only
  split
  · refine ⟨h.changeUnit u (fun v hv => ?_) (by simp) ?_ nq, fun _ => by simp [Part.enterResting, PumpUnit.enter]⟩
    · simp [Part.enterResting, Part.unit_modUnit, Part.unit_enterUnit, unit_setReserved, hv]
    · simp [Part.enterResting, PumpUnit.enter, PumpUnit.booksFit, keepTimer, hf, ho, hrun]
  · refine ⟨h.changeUnit u (fun v hv => ?_) (by simp) ?_ nq, fun hl => absurd hl ‹_›⟩
    · simp [Part.tripUnit, Part.unit_modUnit, Part.unit_enterUnit, unit_setReserved, hv]
    · simp [Part.tripUnit, PumpUnit.enter, PumpUnit.booksFit, keepTimer, ho, hr, hrun]

theorem failAtGrant {p : Part} (h : p.BooksHold) {u : UnitNo} (hs : (p.unit u).inStart = true) (c : EventCode)
    (f : FaultCode) : (p.failAtGrant u c f).BooksHold := by
  obtain ⟨failed, rests⟩ := h.startFailed hs c f
  unfold Part.failAtGrant
  simp only
  split
  · rename_i hl
    exact failed.sumLoads.restOver (by simpa using rests hl.1)
  · exact failed.sumLoads

theorem startIfZero {p : Part} (h : p.BooksHold) (u : UnitNo) : (p.startIfZero u).BooksHold := by
  unfold Part.startIfZero
  split
  · rename_i hs
    split
    · exact h.failAtGrant (by simp [PumpUnit.inStart, hs]) _ _
    · exact h
  · rename_i hs
    split
    · exact h.failAtGrant (by simp [PumpUnit.inStart, hs]) _ _
    · exact h
  all_goals exact h

/-- The entry into STARTING of a unit in PRIMING (R33, R34). -/
theorem enterStarting {p : Part} (h : p.BooksHold) {u : UnitNo} (hs : (p.unit u).state = .priming) :
    (p.enterStarting u).BooksHold := by
  obtain ⟨hf, ho, hr, hrun⟩ := (h.fit u).of_inStart (by simp [PumpUnit.inStart, hs])
  have unit : ∀ v, (p.enterStarting u).unit v = ((p.enterUnit u .starting).modUnit u fun pu =>
      { pu with
        startTimer := p.startTimer (p.unitRecord u).startTimeout
        history := appendHistory pu.history p.accounting.uptime }).unit v := fun v => rfl
  refine h.changeUnit u (fun v hv => ?_) rfl ?_ (by simp [hs])
  · simp [unit, Part.unit_modUnit, Part.unit_enterUnit, hv]
  · simp [unit, PumpUnit.booksFit, PumpUnit.enter, keepTimer, PumpUnit.inStart, hf, ho, hr, hrun]

end Part.BooksHold

end Sys2Proof.Machine
end

section
/-! SUPPORT. The books of the units through grants, stops, loads, stages and rounds. -/

namespace Sys2Proof.Machine

namespace Part.BooksHold

/-! ### Grants, entries and a fall of committed load -/

/-- Once the head entry has left, no entry of its unit is left. -/
theorem behind_ne {p : Part} (h : p.BooksHold) {e : QueueEntry} {rest : List QueueEntry}
    (hq : p.arbiter.queue = e :: rest) : ∀ x ∈ rest, x.unit ≠ e.unit := by
  have n := h.once
  rw [hq, List.map_cons, List.nodup_cons] at n
  exact fun x hx eq => n.1 (eq ▸ List.mem_map_of_mem hx)

/-- The grant of the head of the queue (R105). -/
theorem grant {p : Part} (h : p.BooksHold) {e : QueueEntry} {rest : List QueueEntry}
    (hq : p.arbiter.queue = e :: rest) : ((p.setQueue rest).grant e.unit).BooksHold := by
  have hs : (p.unit e.unit).state = .queued := h.queued e (by simp [hq])
  have hn := (h.fit e.unit).holdsNothing (.inr (.inr hs))
  have behind := h.behind_ne hq
  unfold Part.grant
  simp only
  refine startIfZero ?_ _
  generalize hp1 : (Part.setReserved
    { p.setQueue rest with arbiter := { (p.setQueue rest).arbiter with slot := some e.unit } } e.unit
    ((p.setQueue rest).power e.unit)).sumLoads = p1
  have unit1 : ∀ v, v ≠ e.unit → p1.unit v = p.unit v := by
    intro v hv; subst hp1; simp only [unit_sumLoads, unit_setReserved, hv, if_false]; rfl
  have queue1 : p1.arbiter.queue = rest := by subst hp1; rfl
  have books1 : (p1.unit e.unit).fault = none ∧ (p1.unit e.unit).stopOrigin = none
      ∧ (p1.unit e.unit).retryPending = false ∧ (p1.unit e.unit).run = false := by
    subst hp1
    simp only [unit_sumLoads, unit_setReserved_self]
    exact ⟨hn.fault, hn.stopOrigin, hn.retryPending, hn.run⟩
  clear hp1
  obtain ⟨hf, ho, hr, hrun⟩ := books1
  unfold Part.takeGrant
  simp only
  split
  · refine h.setUnit e.unit (fun v hv => ?_) (by simp [queue1, hq]) ?_ fun x hx xe => ?_
    · simp [Part.unit_modUnit, Part.unit_enterUnit, hv, unit1]
    · simp [PumpUnit.booksFit, PumpUnit.enter, keepTimer, PumpUnit.inStart, hf, ho, hr, hrun]
    · exact absurd xe (behind x (by simpa [queue1] using hx))
  · refine h.setUnit e.unit (fun v hv => ?_) (by simp [queue1, hq]) ?_ fun x hx xe => ?_
    · have k := unit1 v hv
      simp only [Part.unit] at k ⊢
      simp [Part.enterStarting, Part.modUnit, Part.enterUnit, Six.get_set, hv, k]
    · simp only [Part.unit] at hf ho hr hrun ⊢
      simp [Part.enterStarting, Part.modUnit, Part.enterUnit, PumpUnit.booksFit, PumpUnit.enter, keepTimer,
        PumpUnit.inStart, hf, ho, hr, hrun]
    · exact absurd xe (behind x (by simpa [queue1] using hx))

/-- The head check and the load test down the queue (R103, R104). -/
theorem grantFrom (q : List QueueEntry) : ∀ {p : Part}, p.BooksHold → p.arbiter.queue = q →
    (Machine.grantFrom q p).BooksHold := by
  induction q with
  | nil => exact fun h _ => h
  | cons e rest ih =>
    intro p h hq
    unfold Machine.grantFrom
    split
    · refine ih (record
        (h.setUnit e.unit (fun v hv => ?_) (by simp [hq, Part.setQueue]) ?_ fun x hx xe => ?_) _ _ _) rfl
      · simp [Part.unit_enterUnit, hv]
      · simpa using ((h.fit e.unit).holdsNothing (.inr (.inr (h.queued e (by simp [hq]))))).booksFit_enter
          _ (by simp) (by simp) (by simp)
      · exact absurd xe (h.behind_ne hq x (by simpa [Part.setQueue] using hx))
    · split
      · exact h.grant hq
      · exact h

theorem grantCheck {p : Part} (h : p.BooksHold) : p.grantCheck.BooksHold := by
  unfold Part.grantCheck
  split
  · exact h.grantFrom _ rfl
  · exact h

theorem checkIf {p : Part} (h : p.BooksHold) (b : Bool) : (p.checkIf b).BooksHold := by
  unfold Part.checkIf
  split
  · exact h.grantCheck
  · exact h

theorem shedOver {p : Part} (h : p.BooksHold) : p.shedOver.BooksHold := by
  unfold Part.shedOver
  split
  · exact h.congr rfl rfl
  · exact h

theorem loadsFell {p : Part} (h : p.BooksHold) : p.loadsFell.BooksHold := by
  unfold Part.loadsFell
  split
  · exact h.sumLoads.shedOver.grantCheck
  · exact h.sumLoads

theorem enqueue {p : Part} (h : p.BooksHold) {u : UnitNo} (o : QueueOrigin)
    (hr : o = .retry → (p.unit u).retryPending = false) : (p.enqueue u o).BooksHold := by
  unfold Part.enqueue
  split
  · rename_i ht
    simp only [Part.takesEnqueue, Bool.or_eq_true, Bool.and_eq_true, beq_iff_eq] at ht
    have hn : (p.unit u).HoldsNothing := by
      rcases ht with hs | ⟨hs, ho⟩
      · exact (h.fit u).holdsNothing (.inr (.inl hs))
      · exact (h.fit u).holdsNothing_of_resting hs (hr ho)
    have nq : (p.unit u).state ≠ .queued := by rcases ht with hs | ⟨hs, -⟩ <;> simp [hs]
    exact (h.joinQueue o hn nq).grantCheck
  · exact h

/-- The units of entries that have left the queue return to IDLE (R98). -/
theorem idleUnits (q : List QueueEntry) : ∀ {p : Part}, p.BooksHold →
    (∀ e ∈ q, (p.unit e.unit).HoldsNothing) → (∀ e ∈ q, ∀ x ∈ p.arbiter.queue, x.unit ≠ e.unit) →
    (Machine.idleUnits q p).BooksHold := by
  induction q with
  | nil => exact fun h _ _ => h
  | cons e rest ih =>
    intro p h hn hq
    have he := hn e (by simp)
    refine ih (h.setUnit e.unit (fun v hv => by simp [Part.unit_enterUnit, hv]) (List.Sublist.refl _) ?_
      fun x hx xe => absurd xe (hq e (by simp) x hx)) (fun y hy => ?_) fun y hy => hq y (by simp [hy])
    · simpa using he.booksFit_enter _ (by simp) (by simp) (by simp)
    · rw [Part.unit_enterUnit]
      split
      · exact ⟨he.fault, he.stopOrigin, he.retryPending, he.run, he.reserved⟩
      · exact hn y (by simp [hy])

/-- Entries that are not in `kept` leave the queue together, and their units enter IDLE. -/
theorem idleLeaving {p : Part} (h : p.BooksHold) (out : QueueEntry → Bool) :
    (Machine.idleUnits (p.arbiter.queue.filter out)
      (p.setQueue (p.arbiter.queue.filter fun e => !out e))).BooksHold := by
  have once : ∀ e ∈ p.arbiter.queue, ∀ x ∈ p.arbiter.queue, x.unit = e.unit → x = e :=
    fun e he x hx eq => List.inj_on_of_nodup_map h.once hx he eq
  have sub : (p.setQueue (p.arbiter.queue.filter fun e => !out e)).BooksHold :=
    ⟨h.fit, fun e he => h.queued e (List.mem_of_mem_filter he), h.once.sublist (List.filter_sublist.map _)⟩
  refine sub.idleUnits _ (fun e he => ?_) fun e he x hx eq => ?_
  · exact (h.fit _).holdsNothing (.inr (.inr (h.queued e (List.mem_of_mem_filter he))))
  · obtain ⟨he1, he2⟩ := List.mem_filter.mp he
    obtain ⟨hx1, hx2⟩ := List.mem_filter.mp hx
    rw [once e he1 x hx1 eq] at hx2
    simp [he2] at hx2

theorem emptyQueue {p : Part} (h : p.BooksHold) : p.emptyQueue.BooksHold := by
  simpa [Part.emptyQueue] using h.idleLeaving fun _ => true

theorem endRest {p : Part} (h : p.BooksHold) {u : UnitNo} (hs : (p.unit u).state = .resting) :
    (p.endRest u).BooksHold := (h.restOver hs).checkIf _

theorem restIfZero {p : Part} (h : p.BooksHold) {u : UnitNo} (hs : (p.unit u).state = .resting) :
    (p.restIfZero u).BooksHold := by
  unfold Part.restIfZero
  split
  · exact h.endRest hs
  · exact h

/-! ### Stops -/

/-- A unit with no retry pending and no fault whose RUN is released ends its stop (R40). The other units and the queue
are as in a part whose books hold. -/
theorem stopEnded {p0 p : Part} (h : p0.BooksHold) (u : UnitNo) (hu : ∀ v, v ≠ u → p.unit v = p0.unit v)
    (hq : p.arbiter.queue = p0.arbiter.queue) (hs : (p0.unit u).state ≠ .queued)
    (hf : (p.unit u).fault = none) (hr : (p.unit u).retryPending = false) (hrun : (p.unit u).run = false) :
    (p.stopEnded u).BooksHold := by
  unfold Part.stopEnded
  simp only
  generalize hp1 : (((p.setReserved u 0).record .unitStopped (some u)
    ((p.unit u).stopOrigin.map fun o => (o.code : Int))).modUnit u fun pu => { pu with stopOrigin := none }) = p1
  have unit1 : ∀ v, v ≠ u → p1.unit v = p0.unit v := by
    intro v hv; subst hp1; simp [Part.unit_modUnit, unit_setReserved, hv, hu v hv]
  have queue1 : p1.arbiter.queue = p0.arbiter.queue := by subst hp1; exact hq
  have n1 : (p1.unit u).HoldsNothing := by subst hp1; constructor <;> simp [hf, hr, hrun]
  have enter : ∀ {st : UnitState}, st ≠ .running → st ≠ .stopping → st ≠ .tripped →
      (p1.enterUnit u st).BooksHold := fun {st} a b c =>
    h.changeUnit u (fun v hv => by simp [Part.unit_enterUnit, hv, unit1]) queue1
      (by simpa using n1.booksFit_enter _ a b c) hs
  split
  · exact enter (by simp) (by simp) (by simp)
  · split
    · exact enter (by simp) (by simp) (by simp)
    · refine restIfZero (modUnit (enter (by simp) (by simp) (by simp)) u rfl ?_)
        (by simp [PumpUnit.enter])
      exact (enter (st := .resting) (by simp) (by simp) (by simp)).fit u

/-- The stop timer of a unit in STOPPING expires (R40). The other units and the queue are as in a part whose books
hold. -/
theorem stopFails {p0 p : Part} (h : p0.BooksHold) (u : UnitNo) (hu : ∀ v, v ≠ u → p.unit v = p0.unit v)
    (hq : p.arbiter.queue = p0.arbiter.queue) (hs : (p0.unit u).state ≠ .queued)
    (hr : (p.unit u).retryPending = false) (hrun : (p.unit u).run = true ∨ (p.unit u).reserved = 0) :
    (p.stopFails u).BooksHold := by
  refine h.changeUnit u (fun v hv => ?_) hq ?_ hs
  · simp [Part.stopFails, Part.tripUnit, Part.unit_modUnit, Part.unit_enterUnit, hv, hu v hv]
  · rcases hrun with hl | hl <;>
      simp [Part.stopFails, Part.tripUnit, PumpUnit.enter, PumpUnit.booksFit, keepTimer, PumpUnit.delivering,
        PumpUnit.inStart, hr, hl]

/-- A stop order that is taken (R39) from a unit in its start sequence, RUNNING, IDLE or OFFLINE. Only the books of the
unit itself may be in want of a fit, by a RUN that has been found asserted at a reset. -/
theorem takeStop {p0 p : Part} (h : p0.BooksHold) (u : UnitNo) (hu : ∀ v, v ≠ u → p.unit v = p0.unit v)
    (hq : p.arbiter.queue = p0.arbiter.queue) (hs : (p0.unit u).state ≠ .queued) (hf : (p.unit u).fault = none)
    (hr : (p.unit u).retryPending = false) (o : StopOrigin) : (p.takeStop u o).BooksHold := by
  unfold Part.takeStop
  simp only
  generalize hp1 : (if (p.unit u).inStart = true then p.freeSlot u else p) = p1
  have units1 : p1.units = p.units := by subst hp1; split <;> simp
  have queue1 : p1.arbiter.queue = p.arbiter.queue := by subst hp1; split <;> simp
  generalize hp2 : (if o = .mains then p1.setReserved u 0 else p1) = p2
  have queue2 : p2.arbiter.queue = p.arbiter.queue := by subst hp2; split <;> exact queue1
  have unit2 : ∀ v, v ≠ u → p2.unit v = p.unit v := by
    intro v hv
    subst hp2
    split
    · rw [unit_setReserved, if_neg hv, Part.unit_of_units units1]
    · rw [Part.unit_of_units units1]
  have self2 : (p2.unit u).fault = (p.unit u).fault ∧ (p2.unit u).retryPending = (p.unit u).retryPending
      ∧ (p2.unit u).run = (p.unit u).run := by
    subst hp2
    split
    · simp [Part.unit_of_units units1]
    · simp [Part.unit_of_units units1]
  obtain ⟨f2, r2, run2⟩ := self2
  split
  · rename_i hrun
    refine loadsFell ?_
    unfold Part.stopIfZero
    split
    · refine h.stopFails u (fun v hv => ?_) (queue2.trans hq) hs ?_ (.inl ?_)
      · simp [Part.enterStopping, Part.unit_modUnit, Part.unit_enterUnit, hv, unit2, hu]
      · simp [Part.enterStopping, PumpUnit.enter, r2, hr]
      · simp [Part.enterStopping, PumpUnit.enter, run2, hrun]
    · refine h.changeUnit u (fun v hv => ?_) (queue2.trans hq) ?_ hs
      · simp [Part.enterStopping, Part.unit_modUnit, Part.unit_enterUnit, hv, unit2, hu]
      · simp [Part.enterStopping, PumpUnit.enter, PumpUnit.booksFit, keepTimer, PumpUnit.delivering, f2, r2, run2, hf,
          hr, hrun]
  · rename_i hrun
    refine loadsFell (h.stopEnded u (fun v hv => ?_) (queue2.trans hq) hs ?_ ?_ ?_)
    · simp [Part.unit_modUnit, hv, unit2, hu]
    · simp [f2, hf]
    · simp [r2, hr]
    · simpa [run2] using hrun

theorem stopOrder {p : Part} (h : p.BooksHold) (u : UnitNo) (o : StopOrigin) : (p.stopOrder u o).BooksHold := by
  unfold Part.stopOrder
  split
  · rename_i ht
    have hs : (p.unit u).inStart = true ∨ (p.unit u).state = .running ∨ (p.unit u).state = .idle
        ∨ (p.unit u).state = .offline := by
      unfold PumpUnit.takesStop at ht
      split at ht <;> simp_all [PumpUnit.inStart]
    have nq : (p.unit u).state ≠ .queued := by
      rcases hs with hs | hs | hs | hs
      · intro e; simp [PumpUnit.inStart, e] at hs
      all_goals simp [hs]
    have books : (p.unit u).fault = none ∧ (p.unit u).retryPending = false := by
      obtain ⟨hf, -, hr, -⟩ := h.fit u
      rcases hs with hs | hs | hs | hs
      · obtain ⟨a, -, b, -⟩ := (h.fit u).of_inStart hs; exact ⟨a, b⟩
      all_goals exact ⟨by simpa [hs] using hf, by simpa [hs] using hr⟩
    exact h.takeStop u (fun _ _ => rfl) rfl nq books.1 books.2 o
  · exact h

theorem stopAll (o : StopOrigin) (us : List UnitNo) : ∀ {p : Part}, p.BooksHold →
    (Machine.stopAll o us p).BooksHold := by
  induction us with
  | nil => exact fun h => h
  | cons u us ih =>
    intro p h
    unfold Machine.stopAll
    split
    · exact ih (h.stopOrder u o)
    · exact ih h

/-- A start that fails by a timer's expiry (R36), with the rest of 0 s that ends at once (R30). -/
theorem failStart {p : Part} (h : p.BooksHold) {u : UnitNo} (hs : (p.unit u).inStart = true) (c : EventCode)
    (f : FaultCode) : (p.failStart u c f).BooksHold := by
  obtain ⟨failed, rests⟩ := h.startFailed hs c f
  unfold Part.failStart
  simp only
  split
  · rename_i hl
    have hrest := rests hl
    refine failed.loadsFell.restIfZero ?_
    rw [unit_loadsFell_of_noEntry (failed.notQueued (by simp [hrest])), hrest]
  · exact failed.loadsFell

/-! ### Reserved loads -/

/-- A unit that gives up its load keeps its books. -/
theorem giveUpLoad {p : Part} (h : p.BooksHold) (u : UnitNo) : (p.setReserved u 0).BooksHold := by
  obtain ⟨hf, ho, hr, hrun, -, ht⟩ := h.fit u
  refine h.modUnit u rfl ⟨hf, ho, hr, hrun, fun k => ?_, ht⟩
  simp at k

/-- A delivering unit reserves any load. -/
theorem reserve {p : Part} (h : p.BooksHold) {u : UnitNo} (hd : (p.unit u).delivering = true) (kw : Nat) :
    (p.setReserved u kw).BooksHold := by
  obtain ⟨hf, ho, hr, hrun, -, ht⟩ := h.fit u
  exact h.modUnit u rfl ⟨hf, ho, hr, hrun, fun _ => .inr hd, ht⟩

theorem shedOne {p : Part} (h : p.BooksHold) : p.shedOne.BooksHold := by
  unfold Part.shedOne
  split
  · exact (h.record _ _ _).stopOrder _ _
  · exact h

theorem shedTest {p : Part} (h : p.BooksHold) : p.shedTest.BooksHold := by
  unfold Part.shedTest
  split
  · exact shedOne (h.congr rfl rfl)
  · exact h

theorem loadsMoved {p : Part} (h : p.BooksHold) : p.loadsMoved.BooksHold := by
  unfold Part.loadsMoved
  split
  · exact h.sumLoads.shedTest
  · exact h.loadsFell

theorem budgetMoved {p : Part} (h : p.BooksHold) (old : Nat) : (p.budgetMoved old).BooksHold := by
  unfold Part.budgetMoved
  split
  · exact h.shedOver.grantCheck
  · split
    · exact h.shedTest
    · exact h

theorem reformBudget {p : Part} (h : p.BooksHold) : p.reformBudget.BooksHold := by
  unfold Part.reformBudget
  refine budgetMoved ?_ _
  exact h.congr rfl rfl

theorem curtailMoved {p : Part} (h : p.BooksHold) (b : Bool) (c : EventCode) : (p.curtailMoved b c).BooksHold := by
  unfold Part.curtailMoved
  simp only
  refine budgetMoved ?_ _
  exact h.congr rfl rfl

theorem reestimateUnits (us : List UnitNo) : ∀ {p : Part}, p.BooksHold →
    (Machine.reestimateUnits us p).BooksHold := by
  induction us with
  | nil => exact fun h => h
  | cons u us ih =>
    intro p h
    unfold Machine.reestimateUnits Part.reestimateUnit
    split
    · exact ih (h.reserve ‹_› _)
    · exact ih h

theorem reestimate {p : Part} (h : p.BooksHold) : p.reestimate.BooksHold := (h.reestimateUnits _).loadsMoved

theorem zeroLoads {p : Part} (h : p.BooksHold) : p.zeroLoads.BooksHold := by
  have unit : ∀ u, p.zeroLoads.unit u = { p.unit u with reserved := 0 } := by
    intro u; simp [Part.zeroLoads, Part.unit]
  refine ⟨fun u => ?_, fun e he => ?_, h.once⟩
  · obtain ⟨hf, ho, hr, hrun, -, ht⟩ := h.fit u
    rw [unit]
    exact ⟨hf, ho, hr, hrun, fun k => by simp at k, ht⟩
  · rw [unit]
    exact h.queued e he

/-! ### Dispatch -/

theorem consultEnqueue {p : Part} (h : p.BooksHold) (u : UnitNo) {o : QueueOrigin} (ho : o ≠ .retry) :
    (p.consultEnqueue u o).BooksHold := by
  unfold Part.consultEnqueue
  split
  · exact (h.consult u false).enqueue o fun e => absurd e ho
  · exact h.consult u false

theorem enqueueAll (us : List UnitNo) : ∀ {p : Part}, p.BooksHold → (Machine.enqueueAll us p).BooksHold := by
  induction us with
  | nil => exact fun h => h
  | cons u us ih =>
    intro p h
    unfold Machine.enqueueAll
    split
    · exact ih (h.consultEnqueue u (by simp))
    · exact ih h

theorem enqueueFirst (us : List UnitNo) : ∀ {p : Part}, p.BooksHold → (Machine.enqueueFirst us p).BooksHold := by
  induction us with
  | nil => exact fun h => h
  | cons u us ih =>
    intro p h
    unfold Machine.enqueueFirst
    split
    · split
      · exact h.consultEnqueue u (by simp)
      · exact ih (h.consult u false)
    · exact ih h

theorem stopSome {p : Part} (h : p.BooksHold) (u : Option UnitNo) (o : StopOrigin) : (p.stopSome u o).BooksHold := by
  unfold Part.stopSome
  split
  · exact h.stopOrder _ o
  · exact h

theorem withdrawAll {p : Part} (h : p.BooksHold) : p.withdrawAll.BooksHold := (h.idleLeaving _).checkIf _

/-- The entry of a QUEUED unit leaves the queue, and the unit enters IDLE (R98). -/
theorem withdraw {p : Part} (h : p.BooksHold) {u : UnitNo} (hs : (p.unit u).state = .queued) :
    ((p.dropEntry u).enterUnit u .idle).BooksHold :=
  h.leaveQueue u (fun v hv => by simp [Part.unit_enterUnit, hv]) rfl
    (by simpa using ((h.fit u).holdsNothing (.inr (.inr hs))).booksFit_enter _ (by simp) (by simp) (by simp))

theorem withdrawNewest {p : Part} (h : p.BooksHold) : p.withdrawNewest.BooksHold := by
  unfold Part.withdrawNewest
  split
  · rename_i e he
    exact (h.withdraw (h.queued e (List.mem_of_mem_filter (List.mem_of_getLast? he)))).checkIf _
  · exact h

theorem demandStage {p : Part} (h : p.BooksHold) (snap : Snapshot) (l : Int) : (p.demandStage snap l).BooksHold := by
  have kept : ∀ d, Part.BooksHold { p with dispatcher := d } := fun d => h.congr rfl rfl
  unfold Part.demandStage
  simp only
  split
  · exact (kept _).enqueueFirst _
  · split
    · exact (kept _).withdrawNewest
    · exact (kept _).stopSome _ _

theorem openStages {p : Part} (h : p.BooksHold) (snap : Snapshot) : (p.openStages snap).BooksHold := by
  unfold Part.openStages
  split
  · exact h.stopSome _ _
  · split
    · split
      · exact h.enqueueAll _
      · exact h
    · unfold Part.levelStages
      split
      · exact h.enqueueAll _
      · split
        · exact h.withdrawAll.stopSome _ _
        · exact h.demandStage snap _

theorem stages {p : Part} (h : p.BooksHold) : p.stages.BooksHold := by
  unfold Part.stages
  split
  · exact h.reestimate
  · split
    · exact h.reestimate.openStages _
    · exact h.reestimate

theorem protect {p : Part} (h : p.BooksHold) : p.protect.BooksHold :=
  ((h.stopAll .lowWater UnitNo.all).emptyQueue).congr rfl rfl

theorem floatHighForwarded {p : Part} (h : p.BooksHold) : p.floatHighForwarded.BooksHold := by
  unfold Part.floatHighForwarded
  split
  · exact h.record _ _ _
  · split
    · exact h
    · exact enqueueAll _ (h.congr rfl rfl)

/-! ### The round -/

theorem recordSome {p : Part} (h : p.BooksHold) (e : Option (EventCode × Option Int)) :
    (p.recordSome e).BooksHold := by
  unfold Part.recordSome
  split
  · exact h.record _ _ _
  · exact h

theorem dispatchAtSnapshot {p : Part} (h : p.BooksHold) (snap : Snapshot) :
    (p.dispatchAtSnapshot snap).BooksHold := by
  unfold Part.dispatchAtSnapshot
  split
  · unfold Part.stopLevelProtection
    split
    · exact h.protect
    · exact h.protect.record _ _ _
  · split
    · exact grantCheck (h.congr rfl rfl)
    · exact h

theorem dwellExpired {p : Part} (h : p.BooksHold) (u : UnitNo) : (p.dwellExpired u).BooksHold :=
  ((h.modUnit u (f := fun pu => { pu with dwellTimer := none }) rfl (h.fit u)).record _ _ _).stopOrder u _

theorem unitAtSnapshot {p : Part} (h : p.BooksHold) (snap : Snapshot) (u : UnitNo) :
    (p.unitAtSnapshot snap u).BooksHold := by
  have dwell : (p.modUnit u fun pu => { pu with dwellTimer := p.dwellAfter u snap }).BooksHold :=
    h.modUnit u rfl (h.fit u)
  unfold Part.unitAtSnapshot
  split
  · simp only
    split
    · exact dwell.dwellExpired u
    · exact dwell
  · exact h

theorem unitsAtSnapshot (snap : Snapshot) (us : List UnitNo) : ∀ {p : Part}, p.BooksHold →
    (Machine.unitsAtSnapshot snap us p).BooksHold := by
  induction us with
  | nil => exact fun h => h
  | cons u us ih => exact fun h => ih (h.unitAtSnapshot snap u)

theorem blocksAct {p : Part} (h : p.BooksHold) (old : RackState) (snap : Snapshot) :
    (p.blocksAct old snap).BooksHold := by
  have curves : (p.formCurves snap).BooksHold := h.congr rfl rfl
  have cleared : ((p.formCurves snap).rackCleared old snap.rack).BooksHold := by
    unfold Part.rackCleared
    split
    · exact curves.grantCheck
    · exact curves
  exact unitsAtSnapshot snap UnitNo.all
    (((cleared.dispatchAtSnapshot snap).aside (GateAndCleanerOnly.sluiceAtSnapshot _ snap).unitsAside).aside
      (GateAndCleanerOnly.cleanerAtSnapshot _ snap).unitsAside)

theorem formSnapshot {p : Part} (h : p.BooksHold) : p.formSnapshot.BooksHold := by
  unfold Part.formSnapshot
  refine recordSome (recordSome (recordSome ?_ _) _) _
  exact h.congr rfl rfl

theorem decideMode {p : Part} (h : p.BooksHold) (snap : Snapshot) : (p.decideMode snap).BooksHold := h.congr rfl rfl

theorem round {p : Part} (h : p.BooksHold) (cur : Currents) : (p.round cur).BooksHold := by
  have sampled : (p.sampleChannels cur).BooksHold := h.congr rfl rfl
  unfold Part.round
  exact (sampled.formSnapshot.blocksAct _ _).decideMode _

theorem immediateRound {p : Part} (h : p.BooksHold) (cur : Currents) : (p.immediateRound cur).BooksHold := by
  unfold Part.immediateRound
  refine round ?_ cur
  exact h.congr rfl rfl

theorem takeDueRound {p : Part} (h : p.BooksHold) (cur : Currents) : (p.takeDueRound cur).BooksHold := by
  unfold Part.takeDueRound
  split
  · exact h.immediateRound cur
  · exact h

theorem takeUnseenRound {p : Part} (h : p.BooksHold) : p.takeUnseenRound.BooksHold := by
  unfold Part.takeUnseenRound
  have counted : Part.BooksHold { p with freeCount := p.freeCount + 1 } := h.congr rfl rfl
  split
  · exact counted.immediateRound _
  · exact h

end Part.BooksHold
end Sys2Proof.Machine
end

section
/-! SUPPORT. The books of the units through line events, unit orders, supervision, plan and record writes. -/

namespace Sys2Proof.Machine

/-! ### A rest without a pending retry -/

/-- Without a pending retry the end of a rest leads to IDLE, and no entry joins (R37). -/
theorem endRest_of_noRetry {p : Part} {u : UnitNo} (h : (p.unit u).retryPending = false) :
    p.endRest u = p.enterUnit u .idle := by
  simp [Part.endRest, Part.restOver, Part.rejoins, Part.checkIf, h]

namespace Part.BooksHold

/-! ### Line events of a unit -/

/-- A unit that is given up by queue and slot trips, with no retry and no stop origin left; its load stays only where
RUN is asserted. -/
theorem trips {p q : Part} (h : p.BooksHold) (u : UnitNo) (hu : ∀ v, v ≠ u → q.unit v = p.unit v)
    (hq : q.arbiter.queue = p.arbiter.queue.filter fun e => e.unit != u) (hs : (q.unit u).state = .tripped)
    (hf : (q.unit u).fault.isSome = true) (ho : (q.unit u).stopOrigin = none) (hr : (q.unit u).retryPending = false)
    (ht : (q.unit u).runLossTimer = none) (hl : (q.unit u).run = true ∨ (q.unit u).reserved = 0) : q.BooksHold := by
  refine h.leaveQueue u hu hq ?_
  rcases hl with hl | hl <;>
    simp [PumpUnit.booksFit, PumpUnit.delivering, PumpUnit.inStart, hs, hf, ho, hr, ht, hl]

/-- RUN asserted where the unit does not deliver (R42): the unit trips with its load reserved. -/
theorem uncommandedRun {p : Part} (h : p.BooksHold) {u : UnitNo}
    (hs : (p.unit u).state = .offline ∨ (p.unit u).state = .idle ∨ (p.unit u).state = .queued
      ∨ (p.unit u).state = .priming ∨ (p.unit u).state = .resting) :
    ((p.modUnit u fun pu => { pu with run := true }).uncommandedRun u).BooksHold := by
  have ho : (p.unit u).stopOrigin = none := by
    have iff := (h.fit u).2.1
    rcases hs with e | e | e | e | e <;> simpa [e] using iff
  unfold Part.uncommandedRun
  simp only
  generalize hp2 : (Part.record (Part.modUnit _ u _) .uncommandedRun (some u) _) = p2
  have queue2 : p2.arbiter.queue = p.arbiter.queue.filter fun e => e.unit != u := by
    subst hp2; simp [Part.dropEntry, Part.setQueue]
  have tripped2 : (p2.unit u).state = .tripped ∧ (p2.unit u).run = true := by
    subst hp2; simp [Part.tripUnit, PumpUnit.enter]
  have h2 : p2.BooksHold := by
    subst hp2
    refine h.trips u (fun v hv => ?_) queue2 tripped2.1 ?_ ?_ ?_ ?_ (.inl tripped2.2)
    · simp [Part.tripUnit, Part.unit_modUnit, Part.unit_enterUnit, hv]
    · simp [Part.tripUnit]
    · simp [Part.tripUnit, PumpUnit.enter, ho]
    · simp
    · simp [Part.tripUnit, PumpUnit.enter, keepTimer]
  refine loadsMoved ((h2.checkIf _).reserve ?_ _)
  have kept : (p2.checkIf ((p.modUnit u fun pu => { pu with run := true }).headIs u)).unit u = p2.unit u := by
    unfold Part.checkIf
    split
    · refine unit_grantCheck_of_noEntry fun e he => ?_
      rw [queue2, List.mem_filter] at he
      simpa using he.2
    · rfl
  simp [kept, PumpUnit.delivering, tripped2]

/-- RUN asserted (R35, R42, R43, R47). -/
theorem runOn {p : Part} (h : p.BooksHold) (u : UnitNo) :
    ((p.modUnit u fun pu => { pu with run := true }).runOn u).BooksHold := by
  obtain ⟨hf, ho, hr, -, hl, ht⟩ := h.fit u
  generalize hon : (p.modUnit u fun pu => { pu with run := true }) = on
  have self : on.unit u = { p.unit u with run := true } := by subst hon; simp
  have other : ∀ v, v ≠ u → on.unit v = p.unit v := by intro v hv; subst hon; simp [Part.unit_modUnit, hv]
  have queue : on.arbiter.queue = p.arbiter.queue := by subst hon; rfl
  have state : (on.unit u).state = (p.unit u).state := by rw [self]
  unfold Part.runOn
  split <;> rename_i hs
  · exact hon ▸ h.uncommandedRun (.inl (state ▸ hs))
  · exact hon ▸ h.uncommandedRun (.inr (.inl (state ▸ hs)))
  · exact hon ▸ h.uncommandedRun (.inr (.inr (.inl (state ▸ hs))))
  · exact hon ▸ h.uncommandedRun (.inr (.inr (.inr (.inl (state ▸ hs)))))
  · exact hon ▸ h.uncommandedRun (.inr (.inr (.inr (.inr (state ▸ hs)))))
  · rw [state] at hs
    obtain ⟨sf, so, sr, srun⟩ := (h.fit u).of_inStart (by simp [PumpUnit.inStart, hs])
    unfold Part.startEnds
    simp only
    refine h.changeUnit u (fun v hv => ?_) (by simp [queue]) ?_ (by simp [hs])
    · simp [Part.unit_modUnit, Part.unit_enterUnit, hv, other]
    · have st : (p.unit u).runLossTimer = none := by simpa [hs] using ht
      simp [PumpUnit.booksFit, PumpUnit.enter, keepTimer, PumpUnit.delivering, self, sf, so, sr, st]
  · rw [state] at hs
    have running : ∀ q : Part, (∀ v, v ≠ u → q.unit v = p.unit v) → q.arbiter.queue = p.arbiter.queue →
        q.unit u = { p.unit u with run := true, runLossTimer := none } → q.BooksHold := fun q a b c =>
      h.changeUnit u a b (by rw [c]; simp_all [PumpUnit.booksFit, PumpUnit.delivering]) (by simp [hs])
    split
    · have cleared := running (on.modUnit u fun pu => { pu with runLossTimer := none })
        (fun v hv => by simp [Part.unit_modUnit, hv, other]) queue (by simp [self])
      exact (cleared.reserve (by simp [self, PumpUnit.delivering, hs]) _).loadsMoved
    · rename_i hn
      refine running on other queue ?_
      have stopped : (p.unit u).runLossTimer = none := by simpa [self] using hn
      rw [self, ← stopped]
  · rw [state] at hs
    refine h.changeUnit u other queue ?_ (by simp [hs])
    rw [self]
    simp_all [PumpUnit.booksFit, PumpUnit.delivering]
  · rw [state] at hs
    have on' : on.BooksHold := h.changeUnit u other queue
      (by rw [self]; simp_all [PumpUnit.booksFit, PumpUnit.delivering]) (by simp [hs])
    exact (on'.reserve (by simp [self, PumpUnit.delivering, hs]) _).loadsMoved

/-- RUN released (R40, R43, R47). -/
theorem runOff {p : Part} (h : p.BooksHold) (u : UnitNo) :
    ((p.modUnit u fun pu => { pu with run := false }).runOff u).BooksHold := by
  obtain ⟨hf, ho, hr, hrun, hl, ht⟩ := h.fit u
  generalize hoff : (p.modUnit u fun pu => { pu with run := false }) = off
  have self : off.unit u = { p.unit u with run := false } := by subst hoff; simp
  have other : ∀ v, v ≠ u → off.unit v = p.unit v := by intro v hv; subst hoff; simp [Part.unit_modUnit, hv]
  have queue : off.arbiter.queue = p.arbiter.queue := by subst hoff; rfl
  have state : (off.unit u).state = (p.unit u).state := by rw [self]
  unfold Part.runOff
  split <;> rename_i hs
  · rw [state] at hs
    refine loadsFell ?_
    generalize hq : (off.modUnit u fun pu =>
      { pu with runLossTimer := off.startTimer (off.unitRecord u).runLossDelay }).setReserved u 0 = q
    have unit : ∀ v, v ≠ u → q.unit v = p.unit v := by
      intro v hv; subst hq; simp [unit_setReserved, Part.unit_modUnit, hv, other]
    have books : (q.unit u).state = .running ∧ (q.unit u).reserved = 0 ∧ (q.unit u).run = false
        ∧ (q.unit u).fault = none ∧ (q.unit u).stopOrigin = none ∧ (q.unit u).retryPending = false
        ∧ (q.unit u).runLossTimer.isSome = true := by
      subst hq
      simp [self, hs, Part.startTimer]
      exact ⟨by simpa [hs] using hf, by simpa [hs] using ho, by simpa [hs] using hr⟩
    have queueq : q.arbiter.queue = p.arbiter.queue := by subst hq; exact queue
    clear hq
    obtain ⟨b1, b2, b3, b4, b5, b6, b7⟩ := books
    unfold Part.runLostIfZero
    split
    · refine h.changeUnit u (fun v hv => ?_) queueq ?_ (by simp [hs])
      · simp [Part.runLost, Part.tripUnit, Part.unit_modUnit, Part.unit_enterUnit, hv, unit]
      · simp [Part.runLost, Part.tripUnit, PumpUnit.enter, keepTimer, PumpUnit.booksFit, b2, b3, b5, b6]
    · refine h.changeUnit u unit queueq ?_ (by simp [hs])
      simp [PumpUnit.booksFit, b1, b2, b3, b4, b5, b6, b7]
  · rw [state] at hs
    refine loadsFell (h.stopEnded u other queue (by simp [hs]) ?_ ?_ ?_)
    · simpa [self, hs] using hf
    · simpa [self, hs] using hr
    · simp [self]
  · rw [state] at hs
    refine loadsFell (h.changeUnit u (fun v hv => ?_) queue ?_ (by simp [hs]))
    · simp [unit_setReserved, hv, other]
    · simp_all [PumpUnit.booksFit, PumpUnit.delivering]
  all_goals
    rw [state] at hs
    have released : (p.unit u).run = false := by simpa [PumpUnit.delivering, hs] using hrun
    refine h.changeInState u other queue ?_ state
    rw [self, ← released]
    exact h.fit u

/-- TRIP where it trips the unit (R41). -/
theorem motorTrip {p : Part} (h : p.BooksHold) (u : UnitNo) : (p.motorTrip u).BooksHold := by
  unfold Part.motorTrip
  simp only
  generalize hp2 : (Part.record (Part.modUnit _ u _) .motorTrip (some u) _) = p2
  have trips : ∀ q : Part, (∀ v, v ≠ u → q.unit v = p2.unit v) → q.arbiter.queue = p2.arbiter.queue →
      (∃ kw, q.unit u = { p2.unit u with reserved := kw }) →
      ((p.unit u).run = true ∨ (q.unit u).reserved = 0) → q.BooksHold := by
    rintro q a b ⟨kw, c⟩ d
    subst hp2
    refine h.trips u (fun v hv => ?_) ?_ ?_ ?_ ?_ ?_ ?_ (d.imp_left fun d => ?_)
    · rw [a v hv]; simp [Part.tripUnit, Part.unit_modUnit, Part.unit_enterUnit, hv]
    · rw [b]; simp [Part.dropEntry, Part.setQueue]
    · simp [c, Part.tripUnit, PumpUnit.enter]
    · simp [c, Part.tripUnit]
    · simp [c]
    · simp [c]
    · simp [c, Part.tripUnit, PumpUnit.enter, keepTimer]
    · simp [c, Part.tripUnit, PumpUnit.enter, d]
  refine loadsFell ?_
  split
  · rename_i hrun
    exact (trips p2 (fun _ _ => rfl) rfl ⟨_, rfl⟩ (.inl hrun)).checkIf _
  · cases hh : p.headIs u with
    | true =>
      have hn := (h.fit u).holdsNothing (.inr (.inr (h.queued_of_headIs hh)))
      refine giveUpLoad (checkIf (trips p2 (fun _ _ => rfl) rfl ⟨_, rfl⟩ (.inr ?_)) _) u
      subst hp2
      simp [Part.tripUnit, PumpUnit.enter, hn.reserved]
    | false =>
      exact trips _ (fun v hv => by simp [Part.checkIf, unit_setReserved, hv]) rfl ⟨0, by simp [Part.checkIf]⟩
        (.inr (by simp [Part.checkIf]))

theorem tripOn {p : Part} (h : p.BooksHold) (u : UnitNo) : (p.tripOn u).BooksHold := by
  unfold Part.tripOn
  split
  · exact h.record _ _ _
  · exact h.record _ _ _
  all_goals exact h.motorTrip u

theorem primedOn {p : Part} (h : p.BooksHold) (u : UnitNo) : (p.primedOn u).BooksHold := by
  unfold Part.primedOn
  split
  · rename_i hs
    split
    · refine (h.enterStarting hs).failStart ?_ _ _
      simp [PumpUnit.inStart, Part.unit, Part.enterStarting, Part.modUnit, Part.enterUnit, PumpUnit.enter]
    · exact h.enterStarting hs
  all_goals exact h

/-- The run-loss timer of a RUNNING unit expires (R43). -/
theorem runLost {p : Part} (h : p.BooksHold) {u : UnitNo} (hs : (p.unit u).state = .running)
    (ht : (p.unit u).runLossTimer.isSome = true) : (p.runLost u).BooksHold := by
  obtain ⟨hf, ho, hr, hrun, hl, hl'⟩ := h.fit u
  have released := (hl'.mp ht).2
  refine h.changeUnit u (fun v hv => ?_) rfl ?_ (by simp [hs])
  · simp [Part.runLost, Part.tripUnit, Part.unit_modUnit, Part.unit_enterUnit, hv]
  · simp_all [Part.runLost, Part.tripUnit, PumpUnit.enter, keepTimer, PumpUnit.booksFit, PumpUnit.delivering,
      PumpUnit.inStart]

/-! ### Unit orders -/

theorem orderEnable {p : Part} (h : p.BooksHold) (u : UnitNo) : (Machine.orderEnable u p).1.BooksHold := by
  unfold Machine.orderEnable
  split
  · rename_i hs
    have hn := (h.fit u).holdsNothing (.inl hs)
    refine h.changeUnit u (fun v hv => ?_) rfl ?_ (by simp [hs])
    · simp [taken, Part.unit_modUnit, Part.unit_enterUnit, hv]
    · simp [taken, PumpUnit.booksFit, PumpUnit.enter, keepTimer, hn.stopOrigin, hn.run, hn.reserved]
  all_goals exact h

theorem disabled {p : Part} (h : p.BooksHold) {u : UnitNo} (ht : (p.unit u).takesDisable = true) :
    (p.disabled u).BooksHold := by
  have released : (p.unit u).run = false ∧ (p.unit u).reserved = 0 := by
    obtain ⟨hf, ho, hr, hrun, hl, -⟩ := h.fit u
    unfold PumpUnit.takesDisable at ht
    split at ht <;> simp_all [PumpUnit.delivering, PumpUnit.inStart]
  unfold Part.disabled
  refine checkIf (h.leaveQueue u (fun v hv => ?_) rfl ?_) _
  · simp [Part.unit_modUnit, Part.unit_enterUnit, hv]
  · simp [PumpUnit.booksFit, PumpUnit.enter, keepTimer, released]

theorem orderDisable {p : Part} (h : p.BooksHold) (u : UnitNo) : (Machine.orderDisable u p).1.BooksHold := by
  unfold Machine.orderDisable
  split
  · exact h.disabled ‹_›
  · exact h

theorem setAuthority {p : Part} (h : p.BooksHold) (u : UnitNo) (a : Authority) : (p.setAuthority u a).BooksHold :=
  h.modUnit u rfl (h.fit u)

theorem orderHandStart {p : Part} (h : p.BooksHold) (u : UnitNo) : (Machine.orderHandStart u p).1.BooksHold := by
  unfold Machine.orderHandStart
  split
  · exact h
  · split
    · exact ((h.consult u false).setAuthority u .hand).enqueue .hand (by simp)
    · exact h.consult u false

theorem orderHandStop {p : Part} (h : p.BooksHold) (u : UnitNo) : (Machine.orderHandStop u p).1.BooksHold := by
  have hand : ((p.setAuthority u .hand).leaveRestartSet u).BooksHold := (h.setAuthority u .hand).congr rfl rfl
  show (((p.setAuthority u .hand).leaveRestartSet u).handStopped u).BooksHold
  generalize (p.setAuthority u .hand).leaveRestartSet u = q at hand ⊢
  unfold Part.handStopped
  split
  · exact (hand.withdraw ‹_›).checkIf _
  · exact hand.stopOrder u _
  · exact hand.stopOrder u _
  · exact hand.stopOrder u _
  · obtain ⟨hf, ho, -, hrun, hl, ht⟩ := hand.fit u
    exact hand.modUnit u rfl ⟨hf, ho, by simp, hrun, hl, ht⟩
  all_goals exact hand

/-- CLEAR of a TRIPPED unit with RUN released (R56): it rests, or is OFFLINE, and no entry joins. -/
theorem orderClear {p : Part} (h : p.BooksHold) (u : UnitNo) :
    (Machine.orderClear u p).1.BooksHold ∧ (Machine.orderClear u p).1.roundDue = p.roundDue := by
  unfold Machine.orderClear
  split
  · rename_i ht
    have hc : (p.unit u).state = .tripped ∧ (p.unit u).run = false := by
      simp only [PumpUnit.takesClear, Bool.and_eq_true, beq_iff_eq, Bool.not_eq_true'] at ht
      exact ⟨ht.1.1, ht.2⟩
    obtain ⟨-, ho, hr, -, hl, -⟩ := h.fit u
    have stop : (p.unit u).stopOrigin = none := by simpa [hc] using ho
    have retry : (p.unit u).retryPending = false := by simpa [hc] using hr
    have load : (p.unit u).reserved = 0 := by simpa [hc, PumpUnit.inStart, PumpUnit.delivering] using hl
    show (p.cleared u).BooksHold ∧ (p.cleared u).roundDue = p.roundDue
    unfold Part.cleared
    simp only
    generalize hp1 : (Part.record (Part.modUnit p u _) .unitCleared _ _) = p1
    have unit1 : ∀ v, v ≠ u → p1.unit v = p.unit v := by
      intro v hv; subst hp1; simp [Part.unit_modUnit, hv]
    have n1 : (p1.unit u).HoldsNothing := by subst hp1; constructor <;> simp [stop, retry, load, hc]
    have queue1 : p1.arbiter.queue = p.arbiter.queue := by subst hp1; rfl
    have due1 : p1.roundDue = p.roundDue := by subst hp1; rfl
    clear hp1
    have enters : ∀ {st : UnitState}, st ≠ .running → st ≠ .stopping → st ≠ .tripped →
        (p1.enterUnit u st).BooksHold := fun {st} a b c =>
      h.changeUnit u (fun v hv => by simp [Part.unit_enterUnit, hv, unit1]) queue1
        (by simpa using n1.booksFit_enter _ a b c) (by simp [hc])
    split
    · have rests : (p1.enterResting u).BooksHold :=
        modUnit (enters (by simp) (by simp) (by simp)) u rfl
          ((enters (st := .resting) (by simp) (by simp) (by simp)).fit u)
      refine ⟨rests.restIfZero (by simp [Part.enterResting, PumpUnit.enter]), ?_⟩
      unfold Part.restIfZero
      split
      · rw [endRest_of_noRetry (by simp [Part.enterResting, PumpUnit.enter, n1.retryPending])]
        exact due1
      · exact due1
    · exact ⟨enters (by simp) (by simp) (by simp), due1⟩
  · exact ⟨h, rfl⟩

/-! ### Plan, supervision, mains -/

theorem recordActivation {p : Part} (h : p.BooksHold) (n : Nat) : (p.recordActivation n).BooksHold := by
  have skipped : Part.BooksHold
      (if 1 < n then p.record .planSkipped none (some ((n - 1 : Nat) : Int)) else p) := by
    split
    · exact h.record _ _ _
    · exact h
  unfold Part.recordActivation
  simp only
  split
  · exact (skipped.record _ _ _).record _ _ _
  · exact skipped.record _ _ _

theorem activate {p : Part} (h : p.BooksHold) : p.activate.BooksHold := by
  unfold Part.activate
  split
  · exact h
  · refine reformBudget (recordActivation ?_ _)
    exact h.congr rfl rfl

theorem enterAutonomous {p : Part} (h : p.BooksHold) : p.enterAutonomous.BooksHold := by
  unfold Part.enterAutonomous
  simp only
  refine record (reformBudget ?_) _ _ _
  generalize hq : Part.applyFallback _ = q
  have unit : ∀ u, q.unit u = { p.unit u with authority := .auto } := by
    intro u
    subst hq
    exact Six.get_ofFn (fun u => { p.unit u with authority := .auto }) u
  have queue : q.arbiter.queue = p.arbiter.queue := by subst hq; rfl
  refine ⟨fun u => ?_, fun e he => ?_, queue ▸ h.once⟩
  · rw [unit]; exact h.fit u
  · rw [queue] at he; rw [unit]; exact h.queued e he

theorem mainsLoss {p : Part} (h : p.BooksHold) : p.mainsLoss.BooksHold := by
  unfold Part.mainsLoss
  simp only
  refine record (loadsFell (zeroLoads (emptyQueue (stopAll _ _ ?_)))) _ _ _
  exact h.congr rfl rfl

theorem restartWalk (us : List UnitNo) : ∀ {n : Nat} {p : Part}, p.BooksHold →
    (Machine.restartWalk us n p).1.BooksHold := by
  induction us with
  | nil => exact fun h => h
  | cons u us ih =>
    intro n p h
    unfold Machine.restartWalk
    split
    · exact ih (h.consultEnqueue u (by simp))
    · exact ih h

theorem restartBegun {p : Part} (h : p.BooksHold) (n : Int) : (p.restartBegun n).BooksHold := h.congr rfl rfl

theorem restart {p : Part} (h : p.BooksHold) : p.restart.BooksHold := by
  have again : p.mainsOkAgain.BooksHold := by
    unfold Part.mainsOkAgain
    refine grantCheck (aside (reestimate ?_) (GateAndCleanerOnly.sluiceMainsOk _).unitsAside)
    exact h.congr rfl rfl
  unfold Part.restart
  simp only
  split
  · exact again.restartBegun _
  · exact (again.restartWalk _).restartBegun _

/-! ### Configuration -/

theorem rackForcedClear {p : Part} (h : p.BooksHold) : p.rackForcedClear.BooksHold := by
  unfold Part.rackForcedClear
  split
  · exact h
  · refine grantCheck ?_
    exact h.congr rfl rfl

theorem writeGauge {p : Part} (h : p.BooksHold) (c : ChannelName) (r : GaugeRecord) :
    (p.writeGauge c r).BooksHold := by
  have written : Part.BooksHold
      { p with
        config.gauges := p.config.gauges.set c r
        gauge.channels := p.gauge.channels.set c (freshChannel r.fitted) } := h.congr rfl rfl
  unfold Part.writeGauge
  simp only
  split
  · exact written.rackForcedClear
  · exact written

theorem writeStation {p : Part} (h : p.BooksHold) (r : StationRecord) : (p.writeStation r).BooksHold := by
  have est : ∀ (q : Part) old, q.BooksHold → (q.estimatorFollows old).BooksHold := fun q old k => by
    unfold Part.estimatorFollows
    split
    · exact k
    · exact k.congr rfl rfl
  have eval : ∀ (q : Part) old, q.BooksHold → (q.evaluationFollows old).BooksHold := fun q old k => by
    unfold Part.evaluationFollows
    split
    · exact k
    · exact k.congr rfl rfl
  have sup : ∀ (q : Part) old, q.BooksHold → (q.supervisionFollows old).BooksHold := fun q old k => by
    unfold Part.supervisionFollows
    split
    · exact k
    · exact k.congr rfl rfl
  have rake : ∀ (q : Part) old, q.BooksHold → (q.rakeFollows old).BooksHold := fun q old k => by
    unfold Part.rakeFollows
    split
    · exact k
    · exact k.congr rfl rfl
  unfold Part.writeStation
  refine reformBudget (rake _ _ (sup _ _ (eval _ _ (est _ _ ?_))))
  exact h.congr rfl rfl

theorem takeRecord {p : Part} (h : p.BooksHold) (r : RecordName) (bs : List Byte) :
    (Machine.takeRecord r bs p).1.BooksHold := by
  unfold Machine.takeRecord
  split
  · unfold takeLinkRecord
    split
    · unfold Part.writeLink
      simp only
      split <;> exact h.congr rfl rfl
    · exact h
  · unfold takeStationRecord
    generalize clampStation (decodeStation bs) = r
    simp only
    split
    · exact h.writeStation _
    · exact h
  · unfold takeGaugeRecord
    simp only
    split
    · exact h
    · exact h.writeGauge _ _
  · unfold takeUnitRecord
    generalize decodeUnit bs = r
    simp only
    split
    · exact h
    · split
      · exact h.congr rfl rfl
      · exact h

theorem serveWriteConfig {p : Part} (h : p.BooksHold) (t i : Byte) (bs : List Byte) :
    (Machine.serveWriteConfig t i bs p).1.BooksHold := by
  unfold Machine.serveWriteConfig writeRecord
  split
  · exact h
  · rename_i r _
    split
    · exact h
    · have k := h.takeRecord r bs
      split
      · exact h
      · rename_i e
        rw [e] at k
        exact k

end Part.BooksHold
end Sys2Proof.Machine
end

section
namespace Sys2Proof.Machine

/-! ### Operations beside units and queue -/

namespace UnitsAside

theorem record (p : Part) (c : EventCode) (u : Option UnitNo) (v : Option Int) : UnitsAside p (p.record c u v) :=
  ⟨rfl, rfl, rfl⟩

theorem acceptTelegram (p : Part) : UnitsAside p p.acceptTelegram := by
  have resumed : UnitsAside p p.resumeSupervision := by
    unfold Part.resumeSupervision
    split <;> exact ⟨rfl, rfl, rfl⟩
  exact resumed.trans ⟨rfl, rfl, rfl⟩

theorem arrived (p : Part) : UnitsAside p p.arrived := by
  have completed : UnitsAside p (p.modLink Link.completed) := ⟨rfl, rfl, rfl⟩
  exact completed.trans (acceptTelegram _)

theorem sluiceOrder (a : Byte) (p : Part) : UnitsAside p (serveSluiceOrder a p).1 := by
  have closes : ∀ (q : Part) c, UnitsAside q (q.closeGate c) := fun q c =>
    (GateAndCleanerOnly.closeGate q c).unitsAside
  have mode : ∀ m, UnitsAside p { p with sluice.mode := m } := fun m => ⟨rfl, rfl, rfl⟩
  unfold serveSluiceOrder
  split
  · exact mode .auto
  · unfold serveSluiceKeepClosed
    simp only
    split
    · exact (mode _).trans (closes _ _)
    · exact (mode _).trans (closes _ _)
    all_goals exact mode _
  · unfold serveSluiceClear
    split
    · exact closes p _
    all_goals exact refl p
  · exact refl p

theorem rakeOrder (a : Byte) (p : Part) : UnitsAside p (serveRakeOrder a p).1 := by
  unfold serveRakeOrder
  split
  · unfold serveRakeStart
    split
    · exact ⟨rfl, rfl, rfl⟩
    · exact refl p
  · unfold serveRakeClear
    split
    · exact ⟨rfl, rfl, rfl⟩
    all_goals exact refl p
  · exact refl p

theorem setMode (a : Byte) (p : Part) : UnitsAside p (serveSetMode a p).1 := by
  unfold serveSetMode
  split
  · unfold serveHold; split <;> exact ⟨rfl, rfl, rfl⟩
  · unfold serveRelease; split <;> exact ⟨rfl, rfl, rfl⟩
  · exact refl p

theorem planAdd (w : PlanWords) (p : Part) : UnitsAside p (servePlanAdd w p).1 := by
  unfold servePlanAdd
  split <;> exact ⟨rfl, rfl, rfl⟩

theorem planClear (p : Part) : UnitsAside p (servePlanClear p).1 := by
  unfold servePlanClear
  simp only
  split <;> exact ⟨rfl, rfl, rfl⟩

theorem askPlan (n : Byte) (p : Part) : UnitsAside p (serveAskPlan n p).1 := by
  unfold serveAskPlan
  split <;> exact refl p

theorem setAlerts (m : Byte) (p : Part) : UnitsAside p (serveSetAlerts m p).1 := by
  unfold serveSetAlerts
  simp only
  split <;> exact ⟨rfl, rfl, rfl⟩

theorem askConfig (t i : Byte) (p : Part) : UnitsAside p (serveAskConfig t i p).1 := by
  unfold serveAskConfig
  split <;> exact refl p

theorem saveConfig (p : Part) : UnitsAside p (serveSaveConfig p).1 := by
  unfold serveSaveConfig
  split
  · exact refl p
  · split <;> exact ⟨rfl, rfl, rfl⟩

theorem restartPart (p : Part) : UnitsAside p (serveRestartPart p).1 := by
  unfold serveRestartPart
  split <;> exact ⟨rfl, rfl, rfl⟩

/-- A write of a link record or of a unit record moves no unit. -/
theorem writeLinkOrUnit {t : Byte} (ht : t = 0#8 ∨ t = 3#8) (i : Byte) (bs : List Byte) (p : Part) :
    UnitsAside p (serveWriteConfig t i bs p).1 := by
  have link : UnitsAside p (takeLinkRecord bs p).1 := by
    unfold takeLinkRecord Part.writeLink
    simp only
    split
    · split <;> exact ⟨rfl, rfl, rfl⟩
    · exact refl p
  have unit : ∀ u, UnitsAside p (takeUnitRecord u bs p).1 := by
    intro u
    unfold takeUnitRecord
    generalize decodeUnit bs = r
    simp only
    split
    · exact refl p
    · split <;> exact ⟨rfl, rfl, rfl⟩
  have taken : ∀ r, recordNamed t.toNat i.toNat = some r → UnitsAside p (takeRecord r bs p).1 := by
    intro r hr
    rcases ht with rfl | rfl
    · generalize i.toNat = n at hr
      have e : r = .link := by
        unfold recordNamed at hr
        split at hr <;> simp_all
      exact e ▸ link
    · generalize i.toNat = n at hr
      have e : ∃ u, r = .unit u := by
        unfold recordNamed at hr
        split at hr <;> simp_all
        obtain ⟨u, -, e⟩ := hr
        exact ⟨u, e.symm⟩
      obtain ⟨u, rfl⟩ := e
      exact unit u
  unfold serveWriteConfig writeRecord
  split
  · exact refl p
  · rename_i r hr
    split
    · exact refl p
    · have k := taken r hr
      split
      · exact refl p
      · rename_i e
        rw [e] at k
        exact k

end UnitsAside

/-! ### Requests -/

/-- What is told by units, queue and the mark of a due round, and what a service keeps, a request row keeps. -/
theorem request_keeps {P : Part → Prop} (hP : ∀ {p q}, P p → UnitsAside p q → P q)
    {f : Part → Part × Response} (hf : ∀ q, P q → P (f q).1) (k : RequestKind) (t : Byte) {p : Part} (h : P p) :
    P (request k t f p) := by
  unfold request
  split
  · exact hP (hf _ (hP h (UnitsAside.arrived p))) ⟨rfl, rfl, rfl⟩
  · exact hP h ⟨rfl, rfl, rfl⟩

/-- A unit order moves what it moves in the unit its byte numbers. -/
theorem forUnit_keeps {P : Part → Prop} (n : Byte) {order : UnitNo → Part → Part × Response} {p : Part} (h : P p)
    (k : ∀ u, P (order u p).1) : P (forUnit n order p).1 := by
  unfold forUnit
  split
  · exact k _
  · exact h

namespace Part.BooksHold

theorem serveUnitOrder {p : Part} (h : p.BooksHold) (n a : Byte) : (Machine.serveUnitOrder n a p).1.BooksHold := by
  unfold Machine.serveUnitOrder
  split
  · exact forUnit_keeps n h h.orderEnable
  · exact forUnit_keeps n h h.orderDisable
  · exact forUnit_keeps n h h.orderHandStart
  · exact forUnit_keeps n h h.orderHandStop
  · exact forUnit_keeps n h fun u => h.setAuthority u .auto
  · exact forUnit_keeps n h fun u => (h.orderClear u).1
  · exact h

theorem setBudget {p : Part} (h : p.BooksHold) (n : Word16) : (serveSetBudget n p).1.BooksHold := by
  unfold serveSetBudget
  refine reformBudget ?_
  exact h.congr rfl rfl

theorem setClock {p : Part} (h : p.BooksHold) (c : Word32) : (serveSetClock c p).1.BooksHold := by
  unfold serveSetClock
  refine activate ?_
  exact h.congr rfl rfl

/-- Every request keeps the books. -/
theorem serveKind {p : Part} (h : p.BooksHold) (k : RequestKind) (body : List Byte) (cur : Currents) :
    (Machine.serveKind k body cur p).1.BooksHold := by
  unfold Machine.serveKind
  split
  · exact h.aside ⟨rfl, rfl, rfl⟩
  · exact h.immediateRound cur
  · exact forUnit_keeps _ h fun u => h.consult u false
  · exact h.aside (.askPlan _ p)
  · exact h.aside (.askConfig _ _ p)
  · exact h
  · exact h.aside ⟨rfl, rfl, rfl⟩
  · exact h.aside ⟨rfl, rfl, rfl⟩
  · exact h.setBudget _
  · exact h.setClock _
  · exact h.aside (.setMode _ p)
  · exact h.aside (.setAlerts _ p)
  · exact h.aside ⟨rfl, rfl, rfl⟩
  · exact h.serveUnitOrder _ _
  · exact h.aside (.sluiceOrder _ p)
  · exact h.aside (.rakeOrder _ p)
  · exact h.aside (.planAdd _ p)
  · exact h.aside (.planClear p)
  · exact h.serveWriteConfig _ _ _
  · exact h.aside (.saveConfig p)
  · exact h.aside ⟨rfl, rfl, rfl⟩
  · exact h.aside (.restartPart p)

theorem receiveByte {p : Part} (h : p.BooksHold) (b : Byte) (cur : Currents) : (p.receiveByte b cur).BooksHold := by
  have link : ∀ f, (p.modLink f).BooksHold := fun f => h.congr rfl rfl
  have served : ∀ kind tag (f : Part → Part × Response), (∀ q, q.BooksHold → (f q).1.BooksHold) →
      (p.serve kind tag f).BooksHold := by
    intro kind tag f hf
    exact (hf _ (h.aside (UnitsAside.arrived p))).aside ⟨rfl, rfl, rfl⟩
  unfold Part.receiveByte
  split
  · split
    · exact link _
    · exact h
  · unfold Part.extendTelegram
    split
    · exact link _
    · split
      · unfold Part.takeTelegram Part.testTelegram
        split
        · split
          · exact served _ _ _ fun q k => k
          · split
            · exact served _ _ _ fun q k => k.serveKind _ _ _
            · exact h.aside ⟨rfl, rfl, rfl⟩
        · exact link _
      · exact link _
  · split
    · exact link _
    · exact h
  · exact link _
  · exact link _

end Part.BooksHold

/-! ### Resets -/

/-- The books hold but for units that a reset has still to come to: these are IDLE or OFFLINE and hold nothing but a RUN
that may be asserted; the queue is empty. -/
structure Part.BooksAtReset (p : Part) (us : List UnitNo) : Prop where
  queue : p.arbiter.queue = []
  fit : ∀ u, u ∉ us → (p.unit u).booksFit
  fresh : ∀ u ∈ us, ((p.unit u).state = .idle ∨ (p.unit u).state = .offline) ∧ (p.unit u).fault = none
    ∧ (p.unit u).stopOrigin = none ∧ (p.unit u).retryPending = false ∧ (p.unit u).reserved = 0
    ∧ (p.unit u).runLossTimer = none

namespace Part.BooksAtReset

theorem booksHold {p : Part} (h : p.BooksAtReset []) : p.BooksHold :=
  ⟨fun u => h.fit u (by simp), fun e he => by simp [h.queue] at he, by simp [h.queue]⟩

/-- The reset comes to one unit, which fits its books then, and touches no other. -/
theorem next {p q : Part} {u : UnitNo} {us : List UnitNo} (h : p.BooksAtReset (u :: us)) (nu : u ∉ us)
    (hu : ∀ v, v ≠ u → q.unit v = p.unit v) (hq : q.arbiter.queue = []) (hf : (q.unit u).booksFit) :
    q.BooksAtReset us := by
  refine ⟨hq, fun v hv => ?_, fun v hv => ?_⟩
  · by_cases e : v = u
    · exact e ▸ hf
    · exact hu v e ▸ h.fit v (by simp [e, hv])
  · have e : v ≠ u := fun e => nu (e ▸ hv)
    exact hu v e ▸ h.fresh v (by simp [hv])

theorem unitAtReset {p : Part} {u : UnitNo} {us : List UnitNo} (h : p.BooksAtReset (u :: us)) (nu : u ∉ us) :
    (p.unitAtReset u).BooksAtReset us := by
  obtain ⟨hs, hf, ho, hr, hl, ht⟩ := h.fresh u (by simp)
  unfold Part.unitAtReset
  split
  · refine h.next nu (fun v hv => ?_) h.queue ?_
    · simp [Part.tripUnit, Part.unit_modUnit, Part.unit_enterUnit, hv]
    · simp [Part.tripUnit, PumpUnit.enter, keepTimer, PumpUnit.booksFit, PumpUnit.delivering, ho, hr, hl]
  · split
    · rename_i hrun
      have takes : (p.unit u).takesStop .reset = true := by rcases hs with e | e <;> simp [PumpUnit.takesStop, e]
      have aside : (p.unit u).inStart = false := by rcases hs with e | e <;> simp [PumpUnit.inStart, e]
      have stopped : p.stopOrder u .reset
          = (((p.modUnit u fun pu => { pu with stopOrigin := some .reset }).enterStopping u).stopIfZero
              u).loadsFell := by
        simp [Part.stopOrder, Part.takeStop, takes, aside, hrun]
      rw [stopped]
      generalize hp1 : (p.modUnit u fun pu => { pu with stopOrigin := some .reset }).enterStopping u = p1
      have queue1 : p1.arbiter.queue = [] := by subst hp1; exact h.queue
      have unit1 : ∀ v, v ≠ u → p1.unit v = p.unit v := by
        intro v hv; subst hp1; simp [Part.enterStopping, Part.unit_modUnit, Part.unit_enterUnit, hv]
      have self1 : (p1.unit u).state = .stopping ∧ (p1.unit u).run = true ∧ (p1.unit u).stopOrigin = some .reset
          ∧ (p1.unit u).fault = none ∧ (p1.unit u).retryPending = false ∧ (p1.unit u).runLossTimer = none := by
        subst hp1
        simp [Part.enterStopping, PumpUnit.enter, keepTimer, hrun, hf, hr]
      clear hp1
      obtain ⟨s1, r1, o1, f1, e1, t1⟩ := self1
      have queue2 : (p1.stopIfZero u).arbiter.queue = [] := by
        unfold Part.stopIfZero
        split <;> exact queue1
      have noEntry : ∀ v, ∀ e ∈ (p1.stopIfZero u).arbiter.queue, e.unit ≠ v := by simp [queue2]
      refine h.next nu (fun v hv => ?_) ?_ ?_
      · rw [unit_loadsFell_of_noEntry (noEntry v), ← unit1 v hv]
        unfold Part.stopIfZero
        split
        · simp [Part.stopFails, Part.tripUnit, Part.unit_modUnit, Part.unit_enterUnit, hv]
        · rfl
      · exact (queue_loadsFell_of_emptyQueue queue2).trans queue2
      · rw [unit_loadsFell_of_noEntry (noEntry u)]
        unfold Part.stopIfZero
        split
        · simp [Part.stopFails, Part.tripUnit, PumpUnit.enter, keepTimer, PumpUnit.booksFit, PumpUnit.delivering, r1,
            e1]
        · simp [PumpUnit.booksFit, PumpUnit.delivering, s1, r1, o1, f1, e1, t1]
    · rename_i hrun
      refine h.next nu (fun _ _ => rfl) h.queue ?_
      have released : (p.unit u).run = false := by simpa using hrun
      rcases hs with e | e <;> simp [PumpUnit.booksFit, e, hf, ho, hr, hl, ht, released]

theorem unitsAtReset (us : List UnitNo) : ∀ {p : Part}, us.Nodup → p.BooksAtReset us →
    (Machine.unitsAtReset us p).BooksHold := by
  induction us with
  | nil => exact fun _ h => h.booksHold
  | cons u us ih =>
    intro p nd h
    rw [List.nodup_cons] at nd
    exact ih nd.2 (h.unitAtReset nd.1)

/-- Every block after a reset, before its lines act. -/
theorem blank (p : Part) (restart : Bool) (l : FieldLines) : (p.blank restart l).BooksAtReset UnitNo.all := by
  have unit : ∀ u, (p.blank restart l).unit u
      = PumpUnit.afterReset ((loadedConfig p.store.image).units.get u) (l.units.get u)
        (if restart then (p.units.get u).history else []) := fun u => Six.get_ofFn _ u
  refine ⟨rfl, fun u hu => absurd ?_ hu, fun u _ => ?_⟩
  · cases u <;> simp [UnitNo.all]
  · rw [unit]
    refine ⟨?_, rfl, rfl, rfl, rfl, rfl⟩
    show (if _ then _ else _) = _ ∨ (if _ then _ else _) = _
    split <;> simp

end Part.BooksAtReset

theorem Part.BooksHold.resetTo (p : Part) (restart : Bool) (inp : FieldInputs) :
    (p.resetTo restart inp).BooksHold := by
  have announced : ((p.blank restart inp.lines).announce restart).BooksAtReset UnitNo.all := by
    obtain ⟨q, f, g⟩ := Part.BooksAtReset.blank p restart inp.lines
    unfold Part.announce
    simp only
    split <;> exact ⟨q, f, g⟩
  have lines := Part.BooksAtReset.unitsAtReset UnitNo.all (by decide) announced
  unfold Part.resetTo Part.floatLowAtReset
  refine Part.BooksHold.round ?_ _
  split
  · exact lines.protect.record _ _ _
  · exact lines

/-! ### Commands -/

/-- The books hold and no immediate round is left over. -/
structure Part.Settled (p : Part) : Prop where
  books : p.BooksHold
  notDue : p.roundDue = false

namespace Part.Settled

theorem aside {p q : Part} (h : p.Settled) (a : UnitsAside p q) : q.Settled :=
  ⟨h.books.aside a, a.roundDue.trans h.notDue⟩

theorem unitBooksFit {p : Part} (h : p.Settled) : p.UnitBooksFit := ⟨h.books.fit, h.notDue⟩

theorem ofBooksFit {p : Part} (h : p.UnitBooksFit) (q : p.QueueMatches) : p.Settled :=
  ⟨⟨h.1, fun e he => (q.1 e.unit).mpr (List.mem_map_of_mem he), q.2⟩, h.2⟩

end Part.Settled

namespace Part.BooksHold

theorem settledRound {p : Part} (h : p.BooksHold) (cur : Currents) : (p.round cur).Settled := ⟨h.round cur, rfl⟩

theorem settledImmediate {p : Part} (h : p.BooksHold) (cur : Currents) : (p.immediateRound cur).Settled :=
  ⟨h.immediateRound cur, rfl⟩

theorem settledDue {p : Part} (h : p.BooksHold) (cur : Currents) : (p.takeDueRound cur).Settled :=
  ⟨h.takeDueRound cur, by simp⟩

theorem settledUnseen {p : Part} (h : p.BooksHold) : p.takeUnseenRound.Settled := ⟨h.takeUnseenRound, by simp⟩

end Part.BooksHold

/-- A request that moves no unit. -/
theorem settled_request {p : Part} (h : p.Settled) (k : RequestKind) (t : Byte) {f : Part → Part × Response}
    (hf : ∀ q, UnitsAside q (f q).1) : (request k t f p).Settled :=
  request_keeps (fun k a => k.aside a) (fun q k => k.aside (hf q)) k t h

/-- A unit order that keeps the books and leaves no round due. -/
theorem settled_unitRequest {p : Part} (h : p.Settled) (k : RequestKind) (t n : Byte)
    {order : UnitNo → Part → Part × Response} (hf : ∀ u q, q.BooksHold → (order u q).1.BooksHold)
    (hd : ∀ u q, q.BooksHold → (order u q).1.roundDue = q.roundDue) : (request k t (forUnit n order) p).Settled :=
  request_keeps (fun k a => k.aside a)
    (fun _ k => forUnit_keeps n k fun u => ⟨hf u _ k.books, (hd u _ k.books).trans k.notDue⟩) k t h

/-- A request that keeps the books. -/
theorem booksHold_request {p : Part} (h : p.BooksHold) (k : RequestKind) (t : Byte) {f : Part → Part × Response}
    (hf : ∀ q, q.BooksHold → (f q).1.BooksHold) : (request k t f p).BooksHold :=
  request_keeps (fun k a => k.aside a) hf k t h

end Sys2Proof.Machine
end

section
/-! The books of the units (O4). -/
namespace Sys2Proof.Machine

theorem settled_if {c : Prop} [Decidable c] {a b : Part} (ha : c → a.Settled) (hb : ¬c → b.Settled) :
    (if c then a else b).Settled := by
  split
  · exact ha ‹_›
  · exact hb ‹_›

section
variable {p : Part} (h : p.BooksHold) (u : UnitNo)
include h

/-- The trip line takes no part in the books. -/
theorem Part.BooksHold.tripLine (b : Bool) : (p.modUnit u fun pu => { pu with trip := b }).BooksHold :=
  h.modUnit u rfl (h.fit u)

/-- The primed line takes no part in the books. -/
theorem Part.BooksHold.primedLine (b : Bool) : (p.modUnit u fun pu => { pu with primed := b }).BooksHold :=
  h.modUnit u rfl (h.fit u)

theorem Part.BooksHold.minRunOver :
    (p.modUnit u fun pu => { pu with minRunTimer := none, minRunElapsed := true }).BooksHold :=
  h.modUnit u rfl (h.fit u)

end

/-- A limit switch moves and the gate controller acts: no unit is touched. -/
theorem Part.Settled.limitMoved {p : Part} (h : p.Settled) (g : Sluice) (b : Bool) :
    ({ p with sluice := g }.limitMoved b).Settled :=
  h.aside (UnitsAside.trans (q := { p with sluice := g }) ⟨rfl, rfl, rfl⟩
    (GateAndCleanerOnly.limitMoved _ _).unitsAside)

/-- The line events of a unit keep the books. -/
theorem settled_unitLine {s t : State} (h : s.part.Settled) (u : UnitNo) {c : Instr}
    (hc : c = .runAsserted u ∨ c = .runReleased u ∨ c = .tripAsserted u ∨ c = .tripReleased u
      ∨ c = .primedAsserted u ∨ c = .primedReleased u) (e : exec c s = .next t) : t.part.Settled := by
  rcases hc with rfl | rfl | rfl | rfl | rfl | rfl <;> injection e with e <;> subst e
  · exact settled_if (fun _ => h) fun _ => (h.books.runOn u).settledUnseen
  · exact settled_if (fun _ => (h.books.runOff u).settledUnseen) fun _ => h
  · exact settled_if (fun _ => h) fun _ =>
      ((h.books.tripLine u true).tripOn u).settledUnseen
  · exact ⟨h.books.tripLine u false, h.notDue⟩
  · exact settled_if (fun _ => h) fun _ =>
      ((h.books.primedLine u true).primedOn u).settledUnseen
  · exact ⟨h.books.primedLine u false, h.notDue⟩

/-- The timer expiries of a unit keep the books. -/
theorem settled_unitTimer {s t : State} (h : s.part.Settled) (u : UnitNo) {c : Instr} {cur : Currents}
    (hc : c = .primeTimerExpiry u cur ∨ c = .startTimerExpiry u cur ∨ c = .stopTimerExpiry u
      ∨ c = .restTimerExpiry u cur ∨ c = .minRunTimerExpiry u ∨ c = .runLossTimerExpiry u
      ∨ c = .dwellTimerExpiry u) (e : exec c s = .next t) : t.part.Settled := by
  rcases hc with rfl | rfl | rfl | rfl | rfl | rfl | rfl <;> injection e with e <;> subst e
  · refine settled_if (fun hs => ?_) fun _ => h
    simp only [Bool.and_eq_true, beq_iff_eq] at hs
    exact (h.books.failStart (by simp [PumpUnit.inStart, hs]) _ _).settledDue cur
  · refine settled_if (fun hs => ?_) fun _ => h
    simp only [Bool.and_eq_true, beq_iff_eq] at hs
    exact (h.books.failStart (by simp [PumpUnit.inStart, hs]) _ _).settledDue cur
  · refine settled_if (fun hs => ?_) fun _ => h
    simp only [Bool.and_eq_true, beq_iff_eq] at hs
    obtain ⟨-, -, hr, hrun, hl, -⟩ := h.books.fit u
    refine ⟨h.books.stopFails u (fun _ _ => rfl) rfl (by simp [hs]) (by simpa [hs] using hr) ?_, h.notDue⟩
    by_cases hn : (s.part.unit u).run = true
    · exact .inl hn
    · exact .inr (Nat.eq_zero_of_not_pos fun c => hn (by
        simpa [hs, PumpUnit.delivering, PumpUnit.inStart] using hl c))
  · refine settled_if (fun hs => ?_) fun _ => h
    simp only [Bool.and_eq_true, beq_iff_eq] at hs
    exact (h.books.endRest hs.1).settledDue cur
  · exact settled_if
      (fun _ => ⟨h.books.minRunOver u, h.notDue⟩) fun _ => h
  · refine settled_if (fun hs => ?_) fun _ => h
    simp only [Bool.and_eq_true, beq_iff_eq] at hs
    exact ⟨h.books.runLost hs.1 hs.2, h.notDue⟩
  · exact settled_if (fun _ => (h.books.dwellExpired u).settledUnseen) fun _ => h

/-- Every command keeps the books and leaves no round due. -/
theorem settled_exec {s t : State} (h : s.part.Settled) (c : Instr) (e : exec c s = .next t) : t.part.Settled := by
  cases c
  case runAsserted u => exact settled_unitLine h u (by simp) e
  case runReleased u => exact settled_unitLine h u (by simp) e
  case tripAsserted u => exact settled_unitLine h u (by simp) e
  case tripReleased u => exact settled_unitLine h u (by simp) e
  case primedAsserted u => exact settled_unitLine h u (by simp) e
  case primedReleased u => exact settled_unitLine h u (by simp) e
  case primeTimerExpiry u cur => exact settled_unitTimer (cur := cur) h u (by simp) e
  case startTimerExpiry u cur => exact settled_unitTimer (cur := cur) h u (by simp) e
  case stopTimerExpiry u => exact settled_unitTimer (cur := ⟨0, 0, 0, 0⟩) h u (by simp) e
  case restTimerExpiry u cur => exact settled_unitTimer (cur := cur) h u (by simp) e
  case minRunTimerExpiry u => exact settled_unitTimer (cur := ⟨0, 0, 0, 0⟩) h u (by simp) e
  case runLossTimerExpiry u => exact settled_unitTimer (cur := ⟨0, 0, 0, 0⟩) h u (by simp) e
  case dwellTimerExpiry u => exact settled_unitTimer (cur := ⟨0, 0, 0, 0⟩) h u (by simp) e
  all_goals
    injection e with e
    subst e
  case powerOnReset inp => exact ⟨Part.BooksHold.resetTo _ _ _, rfl⟩
  case samplingRound cur => exact h.books.settledRound cur
  case floatHighAsserted cur =>
    refine settled_if (fun _ => h) fun _ => Part.BooksHold.settledImmediate ?_ cur
    unfold Part.floatHighOn
    simp only
    split
    · exact h.books.congr rfl rfl
    · refine Part.BooksHold.floatHighForwarded ?_
      exact h.books.congr rfl rfl
  case floatHighReleased cur =>
    refine settled_if (fun _ => Part.BooksHold.settledImmediate ?_ cur) fun _ => h
    exact h.books.congr rfl rfl
  case floatLowAsserted cur =>
    refine settled_if (fun _ => h) fun _ => Part.BooksHold.settledImmediate ?_ cur
    unfold Part.floatLowOn
    refine Part.BooksHold.protect ?_
    split <;> exact h.books.congr rfl rfl
  case floatLowReleased cur =>
    refine settled_if (fun _ => Part.BooksHold.settledImmediate ?_ cur) fun _ => h
    unfold Part.floatLowOff
    simp only
    split
    · refine Part.BooksHold.floatHighForwarded ?_
      exact h.books.congr rfl rfl
    · exact h.books.congr rfl rfl
  case enable tag n =>
    refine settled_unitRequest h _ tag n (fun u q b => b.orderEnable u) fun u q _ => ?_
    unfold orderEnable
    split <;> rfl
  case disable tag n =>
    exact (booksHold_request h.books _ tag fun q b => forUnit_keeps n b b.orderDisable).settledUnseen
  case handStart tag n cur =>
    exact (booksHold_request h.books _ tag fun q b => forUnit_keeps n b b.orderHandStart).settledDue cur
  case handStop tag n =>
    exact (booksHold_request h.books _ tag fun q b => forUnit_keeps n b b.orderHandStop).settledUnseen
  case unitAuto tag n => exact settled_unitRequest h _ tag n (fun u q b => b.setAuthority u .auto) fun _ _ _ => rfl
  case unitClear tag n =>
    exact settled_unitRequest h _ tag n (fun u q b => (b.orderClear u).1) fun u q b => (b.orderClear u).2
  case askUnit tag n =>
    exact settled_unitRequest h _ tag n (fun u q b => b.consult u false) fun u q _ => roundDue_consult q u false
  case dispatchEvaluation cur =>
    refine Part.BooksHold.settledDue (Part.BooksHold.stages ?_) cur
    exact h.books.congr rfl rfl
  case staggerTimerExpiry =>
    refine settled_if (fun _ => Part.BooksHold.settledUnseen (Part.BooksHold.grantCheck ?_)) fun _ => h
    exact h.books.congr rfl rfl
  case shedDelayTimerExpiry =>
    refine settled_if (fun _ => settled_if (fun _ => ?_) fun _ => h.aside ⟨rfl, rfl, rfl⟩) fun _ => h
    refine Part.BooksHold.settledUnseen (Part.BooksHold.shedOne ?_)
    exact h.books.congr rfl rfl
  case curtailAsserted => exact settled_if (fun _ => h) fun _ => (h.books.curtailMoved _ _).settledUnseen
  case curtailReleased => exact settled_if (fun _ => (h.books.curtailMoved _ _).settledUnseen) fun _ => h
  case setBudget tag n => exact (booksHold_request h.books _ tag fun q b => b.setBudget n).settledUnseen
  case historyTimerExpiry => exact h.aside ⟨rfl, rfl, rfl⟩
  case accountingSecond =>
    refine Part.BooksHold.settledUnseen (Part.BooksHold.activate ?_)
    exact h.books.congr rfl rfl
  case sluiceAtOpenAsserted => exact settled_if (fun _ => h) fun _ => h.limitMoved _ _
  case sluiceAtOpenReleased => exact settled_if (fun _ => h.limitMoved _ _) fun _ => h
  case sluiceAtClosedAsserted => exact settled_if (fun _ => h) fun _ => h.limitMoved _ _
  case sluiceAtClosedReleased => exact settled_if (fun _ => h.limitMoved _ _) fun _ => h
  case travelTimerExpiry => exact settled_if (fun _ => h.aside ⟨rfl, rfl, rfl⟩) fun _ => h
  case sluiceAuto tag => exact settled_request h _ tag (.sluiceOrder 1#8)
  case sluiceKeepClosed tag => exact settled_request h _ tag (.sluiceOrder 2#8)
  case sluiceClear tag => exact settled_request h _ tag (.sluiceOrder 3#8)
  case rakeDoneAsserted =>
    exact settled_if (fun _ => h) fun _ =>
      settled_if (fun _ => h.aside ⟨rfl, rfl, rfl⟩) fun _ => h.aside ⟨rfl, rfl, rfl⟩
  case rakeDoneReleased => exact h.aside ⟨rfl, rfl, rfl⟩
  case rakingTimerExpiry => exact settled_if (fun _ => h.aside ⟨rfl, rfl, rfl⟩) fun _ => h
  case intervalTimerExpiry =>
    exact settled_if
      (fun _ => settled_if (fun _ => h.aside ⟨rfl, rfl, rfl⟩) fun _ => h.aside ⟨rfl, rfl, rfl⟩) fun _ => h
  case pauseTimerExpiry => exact h.aside ⟨rfl, rfl, rfl⟩
  case rakeStart tag => exact settled_request h _ tag (.rakeOrder 1#8)
  case rakeClear tag => exact settled_request h _ tag (.rakeOrder 2#8)
  case setTarget tag a b => exact settled_request h _ tag fun q => ⟨rfl, rfl, rfl⟩
  case planAdd tag w => exact settled_request h _ tag (.planAdd w)
  case planClear tag => exact settled_request h _ tag .planClear
  case askPlan tag n => exact settled_request h _ tag (.askPlan n)
  case supervisionTimerExpiry => exact settled_if (fun _ => h.books.enterAutonomous.settledUnseen) fun _ => h
  case setModeHold tag => exact settled_request h _ tag (.setMode 1#8)
  case setModeRelease tag => exact settled_request h _ tag (.setMode 2#8)
  case mainsOkReleased cur =>
    refine settled_if (fun _ => Part.BooksHold.settledImmediate ?_ cur) fun _ => h
    refine ((Part.BooksHold.mainsLoss ?_).aside (GateAndCleanerOnly.sluiceMainsLost _).unitsAside).aside
      (GateAndCleanerOnly.cleanerMainsLost _).unitsAside
    exact h.books.congr rfl rfl
  case mainsOkAsserted cur =>
    refine settled_if (fun _ => h) fun _ => Part.BooksHold.settledImmediate ?_ cur
    exact h.books.congr rfl rfl
  case settleTimerExpiry cur => exact settled_if (fun _ => h.books.restart.settledDue cur) fun _ => h
  case restartPart tag => exact settled_request h _ tag .restartPart
  case askStation tag => exact settled_request h _ tag fun q => ⟨rfl, rfl, rfl⟩
  case askGauges tag cur =>
    exact request_keeps (fun k a => k.aside a) (fun q k => k.books.settledImmediate cur) _ tag h
  case askCounters tag => exact settled_request h _ tag fun q => ⟨rfl, rfl, rfl⟩
  case setClock tag n => exact (booksHold_request h.books _ tag fun q b => b.setClock n).settledUnseen
  case zeroCounters tag => exact settled_request h _ tag fun q => ⟨rfl, rfl, rfl⟩
  case takeEvents tag n => exact settled_request h _ tag fun q => ⟨rfl, rfl, rfl⟩
  case setAlerts tag n => exact settled_request h _ tag (.setAlerts n)
  case clearAlerts tag n => exact settled_request h _ tag fun q => ⟨rfl, rfl, rfl⟩
  case writeConfigLink tag i bs => exact settled_request h _ tag (.writeLinkOrUnit (.inl rfl) i bs)
  case writeConfigStation tag i bs =>
    exact (booksHold_request h.books _ tag fun q b => b.serveWriteConfig _ i bs).settledUnseen
  case writeConfigGauge tag i bs =>
    exact (booksHold_request h.books _ tag fun q b => b.serveWriteConfig _ i bs).settledUnseen
  case writeConfigUnit tag i bs => exact settled_request h _ tag (.writeLinkOrUnit (.inr rfl) i bs)
  case askConfig tag a b => exact settled_request h _ tag (.askConfig a b)
  case saveConfig tag => exact settled_request h _ tag .saveConfig
  case saveAttemptCompletion b =>
    dsimp only
    split
    · refine settled_if (fun _ => h.aside ⟨rfl, rfl, rfl⟩) fun _ => ?_
      unfold Part.saveFailed
      exact settled_if (fun _ => h.aside ⟨rfl, rfl, rfl⟩) fun _ => h.aside ⟨rfl, rfl, rfl⟩
    · exact h
  case unknownKind tag n =>
    exact settled_if (fun _ => h.aside ((UnitsAside.arrived _).trans ⟨rfl, rfl, rfl⟩)) fun _ =>
      h.aside ⟨rfl, rfl, rfl⟩
  case checkFailure => exact h.aside ⟨rfl, rfl, rfl⟩
  case oversize n => exact h.aside ⟨rfl, rfl, rfl⟩
  case overrun => exact h.aside ⟨rfl, rfl, rfl⟩
  case gapTimerExpiry => exact h.aside ⟨rfl, rfl, rfl⟩
  case replyEnd inp =>
    refine settled_if (fun _ => ?_) fun _ => h
    unfold Part.replyEnds
    split
    · unfold Part.afterReply
      split
      · exact h.aside ⟨rfl, rfl, rfl⟩
      · exact h.aside ⟨rfl, rfl, rfl⟩
      · exact ⟨Part.BooksHold.resetTo _ _ _, rfl⟩
    · exact h.aside ⟨rfl, rfl, rfl⟩
  case byteReceived b cur => exact (h.books.receiveByte b cur).settledDue cur
  case refusalLength tag n m =>
    exact settled_if (fun _ => h.aside ⟨rfl, rfl, rfl⟩) fun _ => h.aside ⟨rfl, rfl, rfl⟩

end Sys2Proof.Machine

open Sys2Proof Sys2Proof.Machine in
/-- Settles O4: the books of the units hold together with a start queue whose entries are QUEUED units, none twice,
and every command keeps both; the last round of the event leaves no round due. -/
theorem unitBooksFitStates : Obligations.UnitBooksFitStates := by
  intro s t fit arbiter _ e
  have settled := Part.Settled.ofBooksFit fit arbiter.1
  rcases step_cases s t e with ⟨c, rest, -, k⟩ | rfl
  · exact (settled_exec (s := { s with pending := rest }) settled c k).unitBooksFit
  · exact fit
end

section
/-! Channels, levels and qualities of a round (chapter 1): O11, O12, O13. -/

namespace Sys2Proof.Machine

/-! ### Channels (R1) -/

/-- The newest invalid sample of a longer buffer: of the newer part, and where that has none, of the older one. -/
theorem newestFault_append (older newer : List Nat) :
    newestFault (older ++ newer) = (newestFault newer).or (newestFault older) := by
  induction older with
  | nil => cases h : newestFault newer <;> simp [newestFault, h]
  | cons i older ih => cases h : newestFault newer <;> simp_all [newestFault]

theorem sampleFault_of_valid {i : Nat} (h : 3800 ≤ i ∧ i ≤ 20500) : sampleFault i = none := by
  simp only [sampleFault]
  rw [if_neg (by omega), if_neg (by omega)]

theorem newestFault_of_allValid {buffer : List Nat} (h : ∀ i ∈ buffer, 3800 ≤ i ∧ i ≤ 20500) :
    newestFault buffer = none := by
  induction buffer with
  | nil => rfl
  | cons i rest ih =>
    have rest_valid := ih fun j hj => h j (by simp [hj])
    simp [newestFault, rest_valid, sampleFault_of_valid (h i (by simp))]

/-- The newest fault of a buffer whose samples after `i` are valid is that of `i`, if it has one. -/
theorem newestFault_of_newerValid (older : List Nat) {newer : List Nat} {i : Nat} {r : InvalidReason}
    (h : ∀ j ∈ newer, 3800 ≤ j ∧ j ≤ 20500) (hi : sampleFault i = some r) :
    newestFault (older ++ i :: newer) = some r := by
  simp [newestFault_append, newestFault, newestFault_of_allValid h, hi]

theorem stateOfBuffer_of_short {buffer : List Nat} (h : buffer.length < 3) : stateOfBuffer buffer = .init := by
  simp [stateOfBuffer, h]

theorem stateOfBuffer_of_fault {buffer : List Nat} (h : 3 ≤ buffer.length) {r : InvalidReason}
    (hf : newestFault buffer = some r) : stateOfBuffer buffer = .invalid r := by
  simp [stateOfBuffer, hf, Nat.not_lt.mpr h]

theorem stateOfBuffer_of_allValid {buffer : List Nat} (h : 3 ≤ buffer.length)
    (hv : ∀ i ∈ buffer, 3800 ≤ i ∧ i ≤ 20500) : stateOfBuffer buffer = .valid := by
  simp [stateOfBuffer, newestFault_of_allValid hv, Nat.not_lt.mpr h]

theorem appendSample_eq (buffer : List Nat) (i : Nat) :
    appendSample buffer i = (if buffer.length < 3 then buffer else buffer.drop 1) ++ [i] := by
  unfold appendSample
  by_cases h : buffer.length < 3
  · rw [if_pos h, if_neg (Nat.not_le.mpr h)]
  · rw [if_neg h, if_pos (Nat.not_lt.mp h), List.drop_one]

/-- A sampled channel of a fitted gauge. -/
theorem sample_of_fitted {g : GaugeRecord} (h : g.fitted = true) (i : Nat) (c : Channel) :
    c.sample g i = ⟨appendSample c.buffer i, stateOfBuffer (appendSample c.buffer i)⟩ := by
  simp [Channel.sample, h]

theorem sample_of_notFitted {g : GaugeRecord} (h : g.fitted = false) (i : Nat) (c : Channel) :
    c.sample g i = ⟨[], .notFitted⟩ := by
  simp [Channel.sample, h]

theorem get_sampleChannels (p : Part) (cur : Currents) (n : ChannelName) :
    (p.sampleChannels cur).gauge.channels.get n
      = (p.gauge.channels.get n).sample (p.config.gauges.get n) (cur.get n) := by
  cases n <;> rfl

/-! ### The gauge unit across a round (R13) -/

@[simp] theorem gauge_recordSome (p : Part) (e : Option (EventCode × Option Int)) :
    (p.recordSome e).gauge = p.gauge := by
  unfold Part.recordSome
  split <;> rfl

/-- What a formed snapshot leaves in the gauge unit (R5 to R13). -/
theorem gauge_formSnapshot (p : Part) :
    p.formSnapshot.gauge
      = { p.gauge with
          heldInner := renewHeld p.accounting.uptime p.findInner p.gauge.heldInner
          heldOuter := renewHeld p.accounting.uptime p.findOuter p.gauge.heldOuter
          innerQuality := p.findInner.quality
          outerQuality := p.findOuter.quality
          rack := (p.snapshotOf p.findInner p.findOuter).rack
          snapshot := some (p.snapshotOf p.findInner p.findOuter) } := by
  simp [Part.formSnapshot]

theorem channels_formSnapshot (p : Part) : p.formSnapshot.gauge.channels = p.gauge.channels := by
  rw [gauge_formSnapshot]

/-- The sampling mode, the round timer and the mode of the snapshot are all that a decided mode changes in the gauge
unit (R14). -/
theorem gauge_decideMode (p : Part) (snap : Snapshot) :
    (p.decideMode snap).gauge
      = { p.gauge with
          mode := p.modeAfter snap
          roundTimer := p.startTimer (p.modeAfter snap).period
          snapshot := some { snap with mode := p.modeAfter snap } } := rfl

/-- The parts of a round (R13): samples, snapshot, the blocks, the sampling mode. -/
theorem round_eq (p : Part) (cur : Currents) {q : Part} {snap : Snapshot} (hq : q = p.sampleChannels cur)
    (hs : snap = q.snapshotOf q.findInner q.findOuter) :
    p.round cur = (q.formSnapshot.blocksAct p.gauge.rack snap).decideMode snap := by
  subst hs hq
  rfl

/-- The blocks that act on a snapshot leave the gauge unit alone, and the sampling mode moves no channel. -/
theorem channels_round (p : Part) (cur : Currents) :
    (p.round cur).gauge.channels = (p.sampleChannels cur).gauge.channels := by
  generalize hq : p.sampleChannels cur = q
  generalize hs : q.snapshotOf q.findInner q.findOuter = snap
  have kept : (q.formSnapshot.blocksAct p.gauge.rack snap).gauge = q.formSnapshot.gauge :=
    (BlocksOnly.blocksAct _ _ _).gauge
  rw [round_eq p cur hq.symm hs.symm, gauge_decideMode, kept]
  exact channels_formSnapshot q

theorem get_channels_round (p : Part) (cur : Currents) (n : ChannelName) :
    (p.round cur).gauge.channels.get n
      = (p.gauge.channels.get n).sample (p.config.gauges.get n) (cur.get n) := by
  rw [channels_round, get_sampleChannels]

/-! ### The level of a channel (R2) -/

theorem median_of_perm {a b c lo mid hi : Nat} (h : [a, b, c].Perm [lo, mid, hi]) (h₁ : lo ≤ mid)
    (h₂ : mid ≤ hi) : median a b c = mid := by
  have total : a + (b + c) = lo + (mid + hi) := by simpa using h.sum_eq
  have ha : a ∈ [lo, mid, hi] := h.subset (by simp)
  have hb : b ∈ [lo, mid, hi] := h.subset (by simp)
  have hc : c ∈ [lo, mid, hi] := h.subset (by simp)
  have hlo : lo ∈ [a, b, c] := h.symm.subset (by simp)
  have hhi : hi ∈ [a, b, c] := h.symm.subset (by simp)
  simp only [List.mem_cons, List.not_mem_nil, or_false] at ha hb hc hlo hhi
  unfold median
  omega

/-- Rounding leaves at most half a divisor, and a half moves away from zero. -/
theorem roundHalfAway_near (n : Int) :
    2 * (16000 * roundHalfAway n 16000 - n).natAbs ≤ 16000
      ∧ (2 * (16000 * roundHalfAway n 16000 - n).natAbs = 16000 →
          n.natAbs < (16000 * roundHalfAway n 16000).natAbs) := by
  unfold roundHalfAway
  split <;> omega

theorem clampNat_eq (lo hi n : Nat) (h : lo ≤ hi) : clampNat lo hi n = max lo (min n hi) := by
  unfold clampNat
  omega

theorem level_of_notValid {c : Channel} (g : GaugeRecord) (h : c.state ≠ .valid) : c.level g = none := by
  unfold Channel.level
  split
  · exact absurd ‹c.state = .valid› h
  · rfl

end Sys2Proof.Machine

open Sys2Proof Sys2Proof.Machine in
/-- Settles O11: the blocks leave the channels as the round's samples left them. -/
theorem roundSamplesChannels : Obligations.RoundSamplesChannels := by
  refine ⟨fun cur s => rfl, ?_⟩
  intro p cur n before after
  have sampled : after = before.sample (p.config.gauges.get n) (cur.get n) := get_channels_round p cur n
  refine ⟨fun h => sampled.trans (sample_of_notFitted h _ _), fun h => ?_⟩
  rw [sample_of_fitted h] at sampled
  have state : after.state = stateOfBuffer after.buffer := by rw [sampled]
  rw [state]
  refine ⟨by rw [sampled]; exact appendSample_eq _ _, stateOfBuffer_of_short, stateOfBuffer_of_allValid, ?_⟩
  intro older newer i full split valid
  have fault {r : InvalidReason} (hi : sampleFault i = some r) : stateOfBuffer after.buffer = .invalid r :=
    stateOfBuffer_of_fault full (split ▸ newestFault_of_newerValid older valid hi)
  exact ⟨fun low => fault (if_pos low),
    fun high => fault (by rw [sampleFault, if_neg (by omega), if_pos high])⟩

open Sys2Proof Sys2Proof.Machine in
/-- Settles O12: the buffer is a permutation of the three sorted currents, so its median is the middle one. -/
theorem channelLevelFromMedian : Obligations.ChannelLevelFromMedian := by
  refine ⟨fun g c h => level_of_notValid g h, ?_⟩
  intro g c lo mid hi valid h₁ h₂ perm
  obtain ⟨a, b, d, three⟩ := List.length_eq_three.mp (perm.length_eq.trans rfl)
  rw [three] at perm
  have level : c.level g = some (levelOf g mid) := by
    simp only [Channel.level, valid, three, median_of_perm perm h₁ h₂]
  obtain ⟨near, half⟩ := roundHalfAway_near
    (g.zero * 16000 + (((max 4000 (min mid 20000) : Nat) : Int) - 4000) * g.span)
  refine ⟨_, near, half, level.trans ?_⟩
  rw [levelOf, clampNat_eq _ _ _ (by decide), clampInt, min_comm]
end

section
/-! Qualities, rack and records of a round, the snapshot in force, and the float lines (chapter 1): O13 to O16. -/

namespace Sys2Proof.Machine

/-! ### Held levels (R6) -/

section
variable {now : Word32} {limit : Nat}

theorem heldLevel_of_young {h : HeldLevel} (young : (now - h.time).toNat ≤ limit) :
    heldLevel now limit (some h) = some h.level := if_pos young

theorem heldLevel_of_old {h : HeldLevel} (old : limit < (now - h.time).toNat) :
    heldLevel now limit (some h) = none := if_neg (Nat.not_le.mpr old)

end

theorem renewHeld_live {Q : Type} (now : Word32) {f : Found Q} {l : Int} (old : Option HeldLevel)
    (live : f.live = true) (level : f.level = some l) : renewHeld now f old = some ⟨l, now⟩ := by
  simp [renewHeld, live, level]

theorem renewHeld_notLive {Q : Type} (now : Word32) {f : Found Q} (old : Option HeldLevel) (live : f.live = false) :
    renewHeld now f old = old := by
  unfold renewHeld
  split <;> simp [live]

theorem nearer_held (h : HeldLevel) (a b : Int) :
    nearer (some h) a b = if (b - h.level).natAbs < (a - h.level).natAbs then b else a := by
  simp only [nearer]
  split <;> split <;> omega

/-! ### The inner quality and level (R5) -/

section
variable {p : Part}

theorem findInner_of_init (h : p.gauge.channels.ga.state = .init ∨ p.gauge.channels.gb.state = .init) :
    p.findInner = ⟨.init, none, false⟩ := by
  unfold Part.findInner
  rw [if_pos (by simpa using h)]

variable (ha : p.gauge.channels.ga.state ≠ .init) (hb : p.gauge.channels.gb.state ≠ .init)
include ha hb

theorem findInner_of_agreeing {a b : Int} (la : p.channelLevel .ga = some a) (lb : p.channelLevel .gb = some b)
    (near : (a - b).natAbs ≤ p.config.station.agreementLimit) :
    p.findInner = ⟨.both, some (Int.tdiv (a + b) 2), true⟩ := by
  simp [Part.findInner, ha, hb, la, lb, near, quotToZero]

theorem findInner_of_disagreeing {a b : Int} (la : p.channelLevel .ga = some a) (lb : p.channelLevel .gb = some b)
    (far : p.config.station.agreementLimit < (a - b).natAbs) :
    p.findInner = ⟨.disagree, some (nearer p.gauge.heldInner a b), true⟩ := by
  simp [Part.findInner, ha, hb, la, lb, Nat.not_le.mpr far]

theorem findInner_of_single {l : Int} (h : (p.channelLevel .ga = some l ∧ p.channelLevel .gb = none)
    ∨ (p.channelLevel .ga = none ∧ p.channelLevel .gb = some l)) : p.findInner = ⟨.single, some l, true⟩ := by
  rcases h with ⟨la, lb⟩ | ⟨la, lb⟩ <;> simp [Part.findInner, ha, hb, la, lb]

theorem findInner_of_held (la : p.channelLevel .ga = none) (lb : p.channelLevel .gb = none) {l : Int}
    (h : heldLevel p.accounting.uptime p.config.station.holdLimit p.gauge.heldInner = some l) :
    p.findInner = ⟨.held, some l, false⟩ := by
  simp [Part.findInner, ha, hb, la, lb, h]

theorem findInner_of_lost (la : p.channelLevel .ga = none) (lb : p.channelLevel .gb = none)
    (h : heldLevel p.accounting.uptime p.config.station.holdLimit p.gauge.heldInner = none) :
    p.findInner = ⟨.lost, none, false⟩ := by
  simp [Part.findInner, ha, hb, la, lb, h]

end

/-! ### The outer quality and level (R8) -/

section
variable {p : Part}

theorem findOuter_of_init (h : p.gauge.channels.go.state = .init) : p.findOuter = ⟨.init, none, false⟩ := by
  simp [Part.findOuter, h]

variable (ho : p.gauge.channels.go.state ≠ .init)
include ho

theorem findOuter_of_level {l : Int} (lo : p.channelLevel .go = some l) : p.findOuter = ⟨.ok, some l, true⟩ := by
  simp [Part.findOuter, ho, lo]

theorem findOuter_of_held (lo : p.channelLevel .go = none) {l : Int}
    (h : heldLevel p.accounting.uptime p.config.station.holdLimit p.gauge.heldOuter = some l) :
    p.findOuter = ⟨.held, some l, false⟩ := by
  simp [Part.findOuter, ho, lo, h]

theorem findOuter_of_lost (lo : p.channelLevel .go = none)
    (h : heldLevel p.accounting.uptime p.config.station.holdLimit p.gauge.heldOuter = none) :
    p.findOuter = ⟨.lost, none, false⟩ := by
  simp [Part.findOuter, ho, lo, h]

end

/-- Only BOTH, SINGLE and DISAGREE are found from live channels (R5). -/
theorem live_findInner {p : Part} (h : p.findInner.quality = .held ∨ p.findInner.quality = .lost
    ∨ p.findInner.quality = .init) : p.findInner.live = false := by
  revert h
  unfold Part.findInner
  split
  · simp
  · split
    · split <;> simp
    · simp
    · simp
    · split <;> simp

theorem findScreen_of_live {p : Part} {inner : Found InnerQuality} (h : inner.live = true) :
    p.findScreen inner = p.channelLevel .gs := if_pos h

theorem findScreen_eq_none {p : Part} {inner : Found InnerQuality}
    (h : p.channelLevel .gs = none ∨ inner.live = false) : p.findScreen inner = none := by
  rcases h with h | h <;> simp [Part.findScreen, h]

/-- Without a screen level there is no rack loss (R9). -/
theorem rackLoss_of_noScreen {p : Part} {inner : Found InnerQuality} (outer : Found OuterQuality)
    (h : p.findScreen inner = none) : (p.snapshotOf inner outer).rackLoss = none := by
  simp [Part.snapshotOf, h, lossOf]

/-! ### The rules of R5 to R9 -/

theorem innerQualityByTable : Rules.InnerQualityByTable := by
  intro p ga gb inner
  refine ⟨fun h => ?_, fun ha hb => ⟨?_, ?_, ?_⟩, fun live l => renewHeld_live _ _ live, renewHeld_notLive _ _⟩
  · simp [inner, findInner_of_init h]
  · intro a b la lb
    refine ⟨fun near => ?_, fun far => ⟨?_, fun held => ?_, fun h held => ?_⟩, ?_⟩
    · simp [inner, findInner_of_agreeing ha hb la lb near]
    · simp [inner, findInner_of_disagreeing ha hb la lb far]
    · simp [inner, findInner_of_disagreeing ha hb la lb far, held, nearer]
    · simp [inner, findInner_of_disagreeing ha hb la lb far, held, nearer_held]
    · rcases Nat.lt_or_ge p.config.station.agreementLimit (a - b).natAbs with far | near
      · simp [inner, findInner_of_disagreeing ha hb la lb far]
      · simp [inner, findInner_of_agreeing ha hb la lb near]
  · intro l h
    simp [inner, findInner_of_single ha hb h]
  · intro la lb
    refine ⟨?_, fun h held young => ?_, fun gone => ?_⟩
    · cases h : heldLevel p.accounting.uptime p.config.station.holdLimit p.gauge.heldInner with
      | some l => simp [inner, findInner_of_held ha hb la lb h]
      | none => simp [inner, findInner_of_lost ha hb la lb h]
    · simp [inner, findInner_of_held ha hb la lb (held ▸ heldLevel_of_young young)]
    · have noLevel : heldLevel p.accounting.uptime p.config.station.holdLimit p.gauge.heldInner = none := by
        rcases gone with held | ⟨h, held, old⟩
        · rw [held, heldLevel]
        · rw [held, heldLevel_of_old old]
      simp [inner, findInner_of_lost ha hb la lb noLevel]

theorem outerQualityAndRackLoss : Rules.OuterQualityAndRackLoss := by
  intro p go outer
  refine ⟨fun h => ?_, fun l ho lo => ?_, fun h ho lo held => ⟨fun young => ?_, fun old => ?_⟩,
    fun ho lo held => ?_, ?_⟩
  · simp [outer, findOuter_of_init h]
  · simp [outer, findOuter_of_level ho lo, renewHeld]
  · simp [outer, findOuter_of_held ho lo (held ▸ heldLevel_of_young young)]
  · simp [outer, findOuter_of_lost ho lo (held ▸ heldLevel_of_old old)]
  · simp [outer, findOuter_of_lost ho lo (held ▸ rfl)]
  · rintro inner rfl
    refine ⟨fun l m ls live level => ?_, fun h => ?_⟩
    · simp [Part.snapshotOf, findScreen_of_live live, ls, level, lossOf]
    · have dark : p.findScreen p.findInner = none := findScreen_eq_none (h.imp_right live_findInner)
      exact ⟨dark, rackLoss_of_noScreen outer dark⟩

end Sys2Proof.Machine

open Sys2Proof Sys2Proof.Machine in
/-- Settles O13, from the inner and the outer table. -/
theorem qualitiesByTable : Obligations.QualitiesByTable := ⟨innerQualityByTable, outerQualityAndRackLoss⟩

namespace Sys2Proof.Machine

/-! ### The rack (R10) -/

theorem rackEvent_of_same (r : RackState) (loss : Option Int) : rackEvent r r loss = none := by
  simp [rackEvent]

theorem rackEvent_of_moved {old new : RackState} (loss : Option Int) (h : new ≠ old) :
    rackEvent old new loss = some (rackCode new, loss) := by
  simp [rackEvent, h]

/-- Where two rows of the rack table lead, from each of its three states. -/
theorem rackAfter_some (st : StationRecord) (l : Int) (r : RackState) :
    rackAfter st (some l) r = rackRow st l (rackRow st l r) := rfl

theorem rackMovesByTable : Rules.RackMovesByTable := by
  intro st l r rising
  refine ⟨rfl, ?_, ?_, fun same => ?_, fun moved => ?_⟩
  · rw [rackAfter_some]
    cases r <;> grind [rackRow]
  · rw [rackAfter_some]
    cases r <;> grind [rackRow]
  · rw [same]
    exact rackEvent_of_same _ _
  · rw [rackEvent_of_moved _ moved]
    cases rackAfter st (some l) r <;> rfl

/-! ### The records of a round (R7, R8) -/

/-- A record takes its time, its place and its flags from clock, queue, enables and the count of free values alone. -/
structure SameRecords (p q : Part) : Prop where
  events : q.events = p.events
  clock : q.accounting.clock = p.accounting.clock
  enables : q.config.enables = p.config.enables
  freeCount : q.freeCount = p.freeCount

namespace SameRecords

theorem record {p q : Part} (h : SameRecords p q) (c : EventCode) (u : Option UnitNo) (v : Option Int) :
    SameRecords (p.record c u v) (q.record c u v) where
  events := by simp [Part.record, h.events, h.clock, h.enables, h.freeCount]
  clock := h.clock
  enables := h.enables
  freeCount := by simp [Part.record, h.freeCount]

theorem recordSome {p q : Part} (h : SameRecords p q) (e : Option (EventCode × Option Int)) :
    SameRecords (p.recordSome e) (q.recordSome e) := by
  unfold Part.recordSome
  cases e with
  | none => exact h
  | some e => exact h.record e.1 none e.2

end SameRecords

/-- The records of a formed snapshot are those of its three events, in the order inner, outer, rack. -/
theorem events_formSnapshot (p : Part) :
    let snap := p.snapshotOf p.findInner p.findOuter
    p.formSnapshot.events
      = (((p.recordSome (p.innerEvent p.findInner)).recordSome (p.outerEvent p.findOuter)).recordSome
          (rackEvent p.gauge.rack snap.rack snap.rackLoss)).events := by
  refine SameRecords.events (.recordSome (.recordSome (.recordSome ?_ _) _) _)
  constructor <;> rfl

theorem qualityChangesRecorded : Rules.QualityChangesRecorded := by
  intro p inner outer snap
  refine ⟨events_formSnapshot p, ?_, ?_, ?_, ?_, ?_, ?_, ?_, ?_, ?_, ?_, ?_, ?_⟩
  · rintro (h | h) <;> simp [Part.innerEvent, h]
  · rintro old (h | h) <;> simp [Part.innerEvent, h, old]
  · intro a b la lb h old
    simp [Part.innerEvent, h, old.symm, la, lb]
  · intro h old notInit
    cases la : p.channelLevel .ga <;> simp [Part.innerEvent, h, old.symm, notInit, la]
  · intro h old
    simp [Part.innerEvent, h, old.symm]
  · intro h old
    simp [Part.innerEvent, h, old.symm]
  · intro h old notInit
    simp [Part.innerEvent, h, old.symm, notInit]
  · rintro (h | h) <;> simp [Part.outerEvent, h]
  · intro h old
    simp [Part.outerEvent, h, old.symm]
  · intro h old
    simp [Part.outerEvent, h, old.symm]
  · intro h old
    simp [Part.outerEvent, h, old]
  · rintro h (old | old) <;> simp [Part.outerEvent, h, old]

end Sys2Proof.Machine

open Sys2Proof Sys2Proof.Machine in
/-- Settles O14, from the rack table and the records of changed qualities. -/
theorem rackAndLevelRecords : Obligations.RackAndLevelRecords := ⟨rackMovesByTable, qualityChangesRecorded⟩

namespace Sys2Proof.Machine

/-! ### The sampling mode (R14) -/

theorem quiet_unit_iff (pu : PumpUnit) :
    pu.quiet = true ↔ pu.state = .idle ∨ pu.state = .offline ∨ (pu.state = .tripped ∧ pu.run = false) := by
  unfold PumpUnit.quiet
  split <;> simp_all

theorem levelQuiet_iff (p : Part) (snap : Snapshot) :
    p.levelQuiet snap = true ↔ (snap.innerQuality = .both ∨ snap.innerQuality = .single)
      ∧ ∃ l : Int, snap.inner = some l ∧ l < p.plan.target - p.plan.band := by
  unfold Part.levelQuiet
  cases snap.inner <;> simp

theorem all_units_iff (f : UnitNo → Bool) : UnitNo.all.all f = true ↔ ∀ u, f u = true := by
  refine ⟨fun h u => List.all_eq_true.mp h u ?_, fun h => List.all_eq_true.mpr fun u _ => h u⟩
  cases u <;> simp [UnitNo.all]

/-- The quiet condition of R14. -/
theorem quiet_iff (p : Part) (snap : Snapshot) :
    p.quiet snap = true ↔
      (∀ u : UnitNo, (p.unit u).state = .idle ∨ (p.unit u).state = .offline
          ∨ ((p.unit u).state = .tripped ∧ (p.unit u).run = false))
        ∧ p.arbiter.queue = [] ∧ p.sluice.state = .closed ∧ p.gauge.effHigh = false ∧ p.gauge.effLow = false
        ∧ p.supervision.mains = .ok ∧ (snap.innerQuality = .both ∨ snap.innerQuality = .single)
        ∧ ∃ l : Int, snap.inner = some l ∧ l < p.plan.target - p.plan.band := by
  simp only [Part.quiet, Bool.and_eq_true, all_units_iff, quiet_unit_iff, levelQuiet_iff, List.isEmpty_iff,
    Part.sluiceClosed, Part.mainsGood, beq_iff_eq, Bool.not_eq_true', and_assoc]

theorem modeAfter_eq_slow (p : Part) (snap : Snapshot) : p.modeAfter snap = .slow ↔ p.quiet snap = true := by
  unfold Part.modeAfter
  split <;> simp_all

theorem period_eq (m : SamplingMode) : m.period = if m = .slow then 10 else 1 := by cases m <;> rfl

/-- The arbiter is told of a rack that has become CLEAR only (R10). -/
theorem rackCleared_eq (p : Part) (old new : RackState) :
    p.rackCleared old new = if new = .clear ∧ old ≠ .clear then p.grantCheck else p := by
  unfold Part.rackCleared
  simp

end Sys2Proof.Machine
end

section
/-! The snapshot in force and the float lines (chapter 1): O15, O16. -/

namespace Sys2Proof.Machine

/-- The blocks in the order of R13. -/
theorem blocksAct_eq (p : Part) (old : RackState) (snap : Snapshot) :
    let curves := p.formCurves snap
    let told := if snap.rack = .clear ∧ old ≠ .clear then curves.grantCheck else curves
    let stations := ((told.dispatchAtSnapshot snap).sluiceAtSnapshot snap).cleanerAtSnapshot snap
    p.blocksAct old snap
      = (((((stations.unitAtSnapshot snap .u1).unitAtSnapshot snap .u2).unitAtSnapshot snap
        .u3).unitAtSnapshot snap .u4).unitAtSnapshot snap .u5).unitAtSnapshot snap .u6 := by
  intro curves told stations
  unfold Part.blocksAct
  rw [rackCleared_eq]
  rfl

@[simp] theorem accounting_recordSome (p : Part) (e : Option (EventCode × Option Int)) :
    (p.recordSome e).accounting = p.accounting := by
  unfold Part.recordSome
  split <;> rfl

theorem accounting_formSnapshot (p : Part) : p.formSnapshot.accounting = p.accounting := by
  simp [Part.formSnapshot]

/-- The quiet condition speaks of nothing that a decided mode sets. -/
theorem decideMode_slow_iff (p : Part) (snap : Snapshot) :
    (p.decideMode snap).gauge.mode = .slow ↔ (p.decideMode snap).quiet snap = true :=
  modeAfter_eq_slow p snap

end Sys2Proof.Machine

open Sys2Proof Sys2Proof.Machine in
/-- Settles O15: a round forms its snapshot, the blocks act on it and leave the gauge unit alone, and the quiet
condition then decides the mode. -/
theorem roundPutsSnapshotInForce : Obligations.RoundPutsSnapshotInForce := by
  intro p cur q snap r curves told stations units
  have acted : q.formSnapshot.blocksAct p.gauge.rack snap = units := blocksAct_eq _ _ _
  have round : r = units.decideMode snap := (round_eq p cur rfl rfl).trans (congrArg (Part.decideMode · snap) acted)
  have blocks : BlocksOnly q.formSnapshot units := acted ▸ BlocksOnly.blocksAct _ _ _
  have gauge : r.gauge = { q.formSnapshot.gauge with
      mode := units.modeAfter snap
      roundTimer := units.startTimer (units.modeAfter snap).period
      snapshot := some { snap with mode := units.modeAfter snap } } := by
    rw [round, gauge_decideMode, blocks.gauge]
  have uptime : units.accounting.uptime = p.accounting.uptime :=
    blocks.uptime.trans (congrArg Accounting.uptime (accounting_formSnapshot q))
  rw [gauge_formSnapshot] at gauge
  have mode : r.gauge.mode = units.modeAfter snap := by rw [gauge]
  refine ⟨round, by rw [gauge], rfl, rfl, rfl, rfl, rfl, by rw [gauge], by rw [gauge], by rw [gauge]; rfl,
    by rw [gauge]; rfl, by rw [gauge]; rfl, ?_, rfl, ?_⟩
  · rw [mode, gauge, Part.startTimer, period_eq, uptime]
  · rw [round]
    exact (decideMode_slow_iff units snap).trans (quiet_iff _ snap)

namespace Sys2Proof.Machine

/-! ### The float lines (R12) -/

section
variable (s : State) (cur : Currents)

theorem exec_floatHighAsserted (h : s.part.gauge.floatHigh = false) :
    exec (.floatHighAsserted cur) s = .next (s.withPart (s.part.floatHighOn.immediateRound cur)) := by
  show execFloatHighAsserted cur s = _
  simp [execFloatHighAsserted, State.act, State.withPart, h]

theorem exec_floatHighReleased (h : s.part.gauge.floatHigh = true) :
    exec (.floatHighReleased cur) s
      = .next (s.withPart ((s.part.setFloats false s.part.gauge.floatLow).immediateRound cur)) := by
  show execFloatHighReleased cur s = _
  simp [execFloatHighReleased, State.act, State.withPart, h]

theorem exec_floatLowAsserted (h : s.part.gauge.floatLow = false) :
    exec (.floatLowAsserted cur) s = .next (s.withPart (s.part.floatLowOn.immediateRound cur)) := by
  show execFloatLowAsserted cur s = _
  simp [execFloatLowAsserted, State.act, State.withPart, h]

theorem exec_floatLowReleased (h : s.part.gauge.floatLow = true) :
    exec (.floatLowReleased cur) s = .next (s.withPart (s.part.floatLowOff.immediateRound cur)) := by
  show execFloatLowReleased cur s = _
  simp [execFloatLowReleased, State.act, State.withPart, h]

end

end Sys2Proof.Machine

open Sys2Proof Sys2Proof.Machine in
/-- Settles O16: each line event by the lines it meets. -/
theorem floatLinesActAndStartRound : Obligations.FloatLinesActAndStartRound := by
  intro cur s g fast floats
  refine ⟨fun high low => ?_, fun high low => ?_, fun high low => ?_, fun high low => ?_, fun high low => ?_,
    fun high low => ?_, fun high => exec_floatHighReleased s cur high⟩
  · rw [exec_floatHighAsserted s cur high, Part.floatHighOn, if_neg (ne_true_of_eq_false low), low]
    rfl
  · rw [exec_floatHighAsserted s cur high, Part.floatHighOn, if_pos low, low]
    rfl
  · rw [exec_floatLowAsserted s cur low, Part.floatLowOn, if_neg (ne_true_of_eq_false high), high]
    rfl
  · rw [exec_floatLowAsserted s cur low, Part.floatLowOn, if_pos high, high]
    rfl
  · rw [exec_floatLowReleased s cur low, Part.floatLowOff, if_pos high, high]
    rfl
  · rw [exec_floatLowReleased s cur low, Part.floatLowOff, if_neg (ne_true_of_eq_false high), high]
    rfl
end

section
/-! The line events and the timers of a unit, and the dwell at a snapshot (chapter 3): O20, O22, O23, O24. -/

namespace Sys2Proof.Machine

/-- Equal parts make equal next states; a row that answers `.next` is of this form. -/
theorem next_withPart (s : State) {a b : Part} (h : a = b) :
    (Host.Outcome.next (s.withPart a) : Result) = .next (s.withPart b) := h ▸ rfl

/-! ### The line events as rows -/

section
variable (s : State) (u : UnitNo)

theorem exec_runAsserted (h : (s.part.unit u).run = false) :
    exec (.runAsserted u) s
      = .next (s.withPart ((s.part.modUnit u fun pu => { pu with run := true }).runOn u).takeUnseenRound) :=
  next_withPart s (if_neg (ne_true_of_eq_false h))

theorem exec_runReleased (h : (s.part.unit u).run = true) :
    exec (.runReleased u) s
      = .next (s.withPart ((s.part.modUnit u fun pu => { pu with run := false }).runOff u).takeUnseenRound) :=
  next_withPart s (if_pos h)

theorem exec_tripAsserted (h : (s.part.unit u).trip = false) :
    exec (.tripAsserted u) s
      = .next (s.withPart ((s.part.modUnit u fun pu => { pu with trip := true }).tripOn u).takeUnseenRound) :=
  next_withPart s (if_neg (ne_true_of_eq_false h))

end

/-! ### RUN and TRIP by the state they meet (R41 to R43, R47) -/

section
variable {p : Part} {u : UnitNo}

theorem runOn_of_uncommanded (h : (p.unit u).state = .offline ∨ (p.unit u).state = .idle
    ∨ (p.unit u).state = .queued ∨ (p.unit u).state = .priming ∨ (p.unit u).state = .resting) :
    p.runOn u = p.uncommandedRun u := by
  unfold Part.runOn
  rcases h with h | h | h | h | h <;> rw [h]

/-- An uncommanded run with fault code and retry set in one change of the unit (R42). -/
theorem uncommandedRun_eq (p : Part) (u : UnitNo) :
    p.uncommandedRun u
      = ((((((((p.dropEntry u).freeSlot u).enterUnit u .tripped).modUnit u fun pu =>
          { pu with fault := some .uncommandedRun, retryPending := false }).record .uncommandedRun (some u)
          (some ((p.unit u).state.code : Int))).checkIf (p.headIs u)).setReserved u (p.power u)).loadsMoved) := by
  unfold Part.uncommandedRun Part.tripUnit
  simp only [modUnit_modUnit]

theorem runOn_of_runLoss (h : (p.unit u).state = .running) (t : (p.unit u).runLossTimer.isSome = true) :
    p.runOn u
      = ((p.modUnit u fun pu => { pu with runLossTimer := none }).setReserved u (p.power u)).loadsMoved := by
  simp [Part.runOn, h, t]

theorem runOn_of_noRunLoss (h : (p.unit u).state = .running) (t : (p.unit u).runLossTimer = none) :
    p.runOn u = p := by
  simp [Part.runOn, h, t]

theorem runOn_of_stopping (h : (p.unit u).state = .stopping) : p.runOn u = p := by
  simp [Part.runOn, h]

theorem runOn_of_tripped (h : (p.unit u).state = .tripped) :
    p.runOn u = (p.setReserved u (p.power u)).loadsMoved := by
  simp [Part.runOn, h]

theorem runOff_of_running (h : (p.unit u).state = .running) :
    p.runOff u
      = (((p.modUnit u fun pu =>
          { pu with runLossTimer := p.startTimer (p.unitRecord u).runLossDelay }).setReserved u 0).runLostIfZero
          u).loadsFell := by
  simp [Part.runOff, h]

theorem runOff_of_stopping (h : (p.unit u).state = .stopping) : p.runOff u = p.endStop u := by
  simp [Part.runOff, h]

theorem runOff_of_tripped (h : (p.unit u).state = .tripped) : p.runOff u = (p.setReserved u 0).loadsFell := by
  simp [Part.runOff, h]

theorem runOff_elsewhere (h₁ : (p.unit u).state ≠ .running) (h₂ : (p.unit u).state ≠ .stopping)
    (h₃ : (p.unit u).state ≠ .tripped) : p.runOff u = p := by
  unfold Part.runOff
  split <;> simp_all

theorem tripOn_of_offline (h : (p.unit u).state = .offline) :
    p.tripOn u = p.record .motorTrip (some u) (some 0) := by
  simp [Part.tripOn, h]

theorem tripOn_of_tripped (h : (p.unit u).state = .tripped) :
    p.tripOn u = p.record .motorTrip (some u) (some 8) := by
  simp [Part.tripOn, h]

theorem tripOn_elsewhere (h₁ : (p.unit u).state ≠ .offline) (h₂ : (p.unit u).state ≠ .tripped) :
    p.tripOn u = p.motorTrip u := by
  unfold Part.tripOn
  split <;> simp_all

/-- A motor trip with fault code, retry and stop origin set in one change of the unit (R41). -/
theorem motorTrip_eq (p : Part) (u : UnitNo) :
    let tripped :=
      ((((p.dropEntry u).freeSlot u).enterUnit u .tripped).modUnit u fun pu =>
        { pu with
          fault := some .motorTrip
          retryPending := false
          stopOrigin := none }).record .motorTrip (some u) (some ((p.unit u).state.code : Int))
    p.motorTrip u
      = (if (p.unit u).run then tripped.checkIf (p.headIs u)
         else (tripped.checkIf (p.headIs u)).setReserved u 0).loadsFell := by
  unfold Part.motorTrip Part.tripUnit
  simp only [modUnit_modUnit]

end

theorem runAssertedOutsideStarting : Rules.RunAssertedOutsideStarting := by
  intro u s p st on released
  have stays : (on.unit u).state = st := by simp [on, st, p]
  have timer : (on.unit u).runLossTimer = (p.unit u).runLossTimer := by simp [on, p]
  have row := exec_runAsserted s u released
  refine ⟨fun h => ?_, fun h t => ?_, fun h t => ?_, fun h => ?_, fun h => ?_⟩
  · rw [row, runOn_of_uncommanded (stays ▸ h), uncommandedRun_eq, stays]
    rfl
  · rw [row, runOn_of_runLoss (stays.trans h) (timer ▸ t)]
    rfl
  · rw [row, runOn_of_noRunLoss (stays.trans h) (timer.trans t)]
  · rw [row, runOn_of_stopping (stays.trans h)]
  · rw [row, runOn_of_tripped (stays.trans h)]
    rfl

theorem runReleased : Rules.RunReleased := by
  intro u s p st off asserted
  have stays : (off.unit u).state = st := by simp [off, st, p]
  have row := exec_runReleased s u asserted
  refine ⟨fun h => ?_, fun h => ?_, fun h => ?_, fun h₁ h₂ h₃ => ?_⟩
  · intro lost
    have loses : off.runOff u = (lost.runLostIfZero u).loadsFell := runOff_of_running (stays.trans h)
    have record : lost.unitRecord u = p.unitRecord u := rfl
    refine ⟨fun delay => ?_, fun delay => ?_⟩
    · rw [row, loses, Part.runLostIfZero, record, if_neg delay]
    · rw [row, loses, Part.runLostIfZero, record, if_pos delay]
      rfl
  · rw [row, runOff_of_stopping (stays.trans h)]
  · rw [row, runOff_of_tripped (stays.trans h)]
  · rw [row, runOff_elsewhere (stays ▸ h₁) (stays ▸ h₂) (stays ▸ h₃)]

end Sys2Proof.Machine

open Sys2Proof Sys2Proof.Machine in
/-- Settles O20, from the rows of RUN by the state they meet. -/
theorem runLineOutsideStarting : Obligations.RunLineOutsideStarting := ⟨runAssertedOutsideStarting, runReleased⟩

open Sys2Proof Sys2Proof.Machine in
/-- Settles O24, by the state that TRIP meets. -/
theorem tripLine : Obligations.TripLine := by
  intro u s p st on tripped
  have stays : (on.unit u).state = st := by simp [on, st, p]
  have run : (on.unit u).run = (p.unit u).run := by simp [on, p]
  refine ⟨fun released h => ?_, fun released h => ?_, fun released h₁ h₂ hr => ?_, fun released h₁ h₂ hr => ?_,
    rfl⟩
  · rw [exec_tripAsserted s u released, tripOn_of_offline (stays.trans h)]
  · rw [exec_tripAsserted s u released, tripOn_of_tripped (stays.trans h)]
  · rw [exec_tripAsserted s u released, tripOn_elsewhere (stays ▸ h₁) (stays ▸ h₂), motorTrip_eq,
      if_pos (run.trans hr), stays]
    rfl
  · rw [exec_tripAsserted s u released, tripOn_elsewhere (stays ▸ h₁) (stays ▸ h₂), motorTrip_eq,
      if_neg (ne_true_of_eq_false (run.trans hr)), stays]
    rfl
end

section
/-! Failed starts and rests, the timers of a unit, and the dwell at a snapshot (chapter 3): O22, O23. -/

namespace Sys2Proof.Machine

/-- The condition of a timer's row: the state that the timer may run in, and the timer running. -/
theorem state_and_timer {st st' : UnitState} {t : Option Timer} (h : st = st') (r : t.isSome = true) :
    (st == st' && t.isSome) = true := by
  simp [h, r]

/-! ### Failed starts (R36) -/

section
variable (p : Part) (u : UnitNo) (code : EventCode)

/-- The load and the slot given up, and the failure recorded (R36). -/
def Part.startGivenUp : Part :=
  ((p.setReserved u 0).freeSlot u).record code (some u) (some (((p.unit u).retriesLeft - 1 : Nat) : Int))

@[simp] theorem accounting_startGivenUp : (p.startGivenUp u code).accounting = p.accounting := by
  simp [Part.startGivenUp]

@[simp] theorem unitRecord_startGivenUp : (p.startGivenUp u code).unitRecord u = p.unitRecord u := by
  simp [Part.startGivenUp]

/-- A rest starts its timer with the minimum rest of the unit's record, now. -/
theorem enterResting_eq {q : Part} (k : q.accounting = p.accounting) (r : q.unitRecord u = p.unitRecord u) :
    q.enterResting u
      = (q.enterUnit u .resting).modUnit u fun pu =>
        { pu with restTimer := some ⟨(p.unitRecord u).minRest, p.accounting.uptime⟩ } := by
  rw [Part.enterResting, Part.startTimer, k, r]

/-- With a retry left, a failed start leads to a rest whose timer starts now (R36). -/
theorem startFailed_of_retries (f : FaultCode) (h : (p.unit u).retriesLeft ≠ 0) :
    p.startFailed u code f
      = ((((p.startGivenUp u code).modUnit u fun pu =>
          { pu with retriesLeft := (p.unit u).retriesLeft - 1, retryPending := true }).enterUnit u .resting).modUnit u
          fun pu => { pu with restTimer := some ⟨(p.unitRecord u).minRest, p.accounting.uptime⟩ }).record
        .retryScheduled (some u) (some (((p.unit u).retriesLeft - 1 : Nat) : Int)) := by
  refine (if_pos (Nat.pos_of_ne_zero h)).trans ?_
  rw [enterResting_eq]
  · rfl
  · exact accounting_startGivenUp p u code
  · exact unitRecord_startGivenUp p u code

theorem startFailed_of_noRetry (f : FaultCode) (h : (p.unit u).retriesLeft = 0) :
    p.startFailed u code f = (p.startGivenUp u code).tripUnit u f :=
  if_neg (by simp [h])

/-- Neither a failed start nor the fallen load changes the working copy. -/
theorem unitRecord_startFailed (f : FaultCode) :
    ((p.startFailed u code f).loadsFell).unitRecord u = p.unitRecord u :=
  (BlocksOnly.trans (BlocksOnly.unitMoves.startFailed p u code f) (BlocksOnly.unitMoves.loadsFell _)).unitRecord u

/-- A failed start, by the retries left and by a rest of 0 s (R30, R36). -/
theorem failStart_eq (f : FaultCode) :
    p.failStart u code f
      = if (p.unit u).retriesLeft = 0 then (p.startFailed u code f).loadsFell
        else if (p.unitRecord u).minRest = 0 then (p.startFailed u code f).loadsFell.endRest u
        else (p.startFailed u code f).loadsFell := by
  unfold Part.failStart Part.restIfZero
  simp only [unitRecord_startFailed, Nat.pos_iff_ne_zero, ne_eq, ite_not]

end

theorem startFailures : Rules.StartFailures := by
  intro u cur s p left failed resting tripped ends
  have fails (code : EventCode) (f : FaultCode) : p.failStart u code f = ends code f := by
    rw [failStart_eq]
    by_cases h : left = 0
    · rw [if_pos h, startFailed_of_noRetry p u code f h]
      exact (if_pos h).symm
    · rw [if_neg h, startFailed_of_retries p u code f h]
      exact (if_neg h).symm
  refine ⟨fun h t => ?_, fun h t => ?_, fails _ _, fails _ _⟩
  · rw [← fails]
    exact next_withPart s (if_pos (state_and_timer h t))
  · rw [← fails]
    exact next_withPart s (if_pos (state_and_timer h t))

/-! ### The end of a rest (R37) -/

/-- The pending retry and the rest timer of a unit cleared. -/
def Part.restCleared (p : Part) (u : UnitNo) : Part :=
  p.modUnit u fun pu => { pu with retryPending := false, restTimer := none }

/-- Eligibility reads neither the pending retry nor the rest timer (R52). -/
theorem eligible_restCleared (p : Part) (u : UnitNo) (own : Bool) :
    (p.restCleared u).eligible u own = p.eligible u own := by
  have cleared : (p.restCleared u).unit u = { p.unit u with retryPending := false, restTimer := none } :=
    Part.unit_modUnit_self p u _
  unfold Part.eligible Part.mayJoin Part.underLimit Part.historyNow
  rw [cleared]
  rfl

section
variable {p : Part} {u : UnitNo} (r : (p.unit u).retryPending = true)
include r

theorem endRest_of_eligible (h : (p.unit u).state = .resting) (e : (p.restCleared u).eligible u true = true) :
    p.endRest u = ((p.restCleared u).consult u true).enqueue u .retry := by
  rw [eligible_restCleared] at e
  have joins : p.rejoins u = true := by simp [Part.rejoins, r, e]
  have taken : ((p.restCleared u).consult u true).takesEnqueue u .retry = true := by
    simp [Part.takesEnqueue, Part.restCleared, h]
  rw [Part.endRest, Part.restOver, if_pos r, joins, Part.enqueue, if_pos taken]
  rfl

theorem endRest_of_notEligible (e : (p.restCleared u).eligible u true = false) :
    p.endRest u = ((p.restCleared u).consult u true).enterUnit u .idle := by
  rw [eligible_restCleared] at e
  have stays : p.rejoins u = false := by simp [Part.rejoins, e]
  rw [Part.endRest, Part.restOver, if_pos r, stays]
  rfl

end

theorem restEnds : Rules.RestEnds := by
  intro u cur s p cleared h t due
  have row : exec (.restTimerExpiry u cur) s = .next (s.withPart ((p.endRest u).takeDueRound cur)) :=
    next_withPart s (if_pos (state_and_timer h t))
  refine ⟨fun r => ?_, fun r e => ?_, fun r e => ?_⟩
  · rw [row, endRest_of_noRetry r, takeDueRound_of_notDue ((Part.enterUnit_roundDue p u .idle).trans due)]
  · rw [row, endRest_of_eligible r h e]
    rfl
  · have notDue : ((cleared.consult u true).enterUnit u .idle).roundDue = false :=
      (roundDue_consult cleared u true).trans due
    rw [row, endRest_of_notEligible r e]
    exact next_withPart s (takeDueRound_of_notDue notDue cur)

end Sys2Proof.Machine

open Sys2Proof Sys2Proof.Machine in
/-- Settles O22, from the failed starts and the ends of rests. -/
theorem startFailuresAndRests : Obligations.StartFailuresAndRests := ⟨startFailures, restEnds⟩

namespace Sys2Proof.Machine

/-! ### The other timers (R38, R40, R43, R50) -/

theorem unitTimerExpiries : Rules.UnitTimerExpiries := by
  intro u s p
  exact ⟨fun h t => next_withPart s (if_pos (state_and_timer h t)),
    fun h t => next_withPart s (if_pos (state_and_timer h t)),
    fun h t => next_withPart s (if_pos (state_and_timer h t)),
    fun h t => next_withPart s (if_pos (state_and_timer h t))⟩

/-! ### The dwell at a snapshot (R49, R50) -/

/-- A change that leaves its unit as it was is none. -/
theorem modUnit_of_eq {p : Part} {u : UnitNo} {f : PumpUnit → PumpUnit} (h : f (p.unit u) = p.unit u) :
    p.modUnit u f = p := by
  show { p with units := p.units.set u (f (p.unit u)) } = p
  rw [h, Part.unit, Six.set_get_self]

/-- Head limiting is in force with an outer quality of OK or HELD (R27). -/
theorem limitingInForce_iff (q : OuterQuality) : limitingInForce q = true ↔ q = .ok ∨ q = .held := by
  cases q <;> simp [limitingInForce]

section
variable {p : Part} {snap : Snapshot} {u : UnitNo}

theorem unitAtSnapshot_of_notRunning (h : (p.unit u).state ≠ .running) : p.unitAtSnapshot snap u = p :=
  if_neg (by simpa using h)

/-- A RUNNING unit whose dwell does not start, or starts with more than 0 s, has its dwell timer set alone. -/
theorem unitAtSnapshot_of_running (h : (p.unit u).state = .running)
    (n : (p.unit u).dwellTimer.isSome = true ∨ p.dwellAfter u snap = none ∨ (p.unitRecord u).headLimitDwell ≠ 0) :
    p.unitAtSnapshot snap u = p.modUnit u fun pu => { pu with dwellTimer := p.dwellAfter u snap } := by
  unfold Part.unitAtSnapshot
  rw [if_pos (by simp [h])]
  refine if_neg ?_
  rcases n with n | n | n
  · simp [Option.isSome_iff_ne_none.mp n]
  · simp [n]
  · simp [n]

variable (limited : (snap.outerQuality = .ok ∨ snap.outerQuality = .held) ∧ (p.curves.get u).limited = true)
include limited

theorem dwellAfter_of_running {t : Timer} (d : (p.unit u).dwellTimer = some t) : p.dwellAfter u snap = some t := by
  simp [Part.dwellAfter, limitingInForce_iff, limited, d]

theorem dwellAfter_of_none (d : (p.unit u).dwellTimer = none) :
    p.dwellAfter u snap = some ⟨(p.unitRecord u).headLimitDwell, p.accounting.uptime⟩ := by
  simp [Part.dwellAfter, limitingInForce_iff, limited, d, Part.startTimer]

/-- A dwell of 0 s expires in the event that starts it (R50). -/
theorem unitAtSnapshot_of_zeroDwell (h : (p.unit u).state = .running) (d : (p.unit u).dwellTimer = none)
    (z : (p.unitRecord u).headLimitDwell = 0) :
    p.unitAtSnapshot snap u
      = (p.modUnit u fun pu => { pu with dwellTimer := p.dwellAfter u snap }).dwellExpired u := by
  unfold Part.unitAtSnapshot
  rw [if_pos (by simp [h])]
  exact if_pos (by simp [d, z, dwellAfter_of_none limited d])

end

theorem dwellAfter_of_notLimited {p : Part} {snap : Snapshot} {u : UnitNo}
    (h : ¬((snap.outerQuality = .ok ∨ snap.outerQuality = .held) ∧ (p.curves.get u).limited = true)) :
    p.dwellAfter u snap = none := by
  refine if_neg fun c => h ?_
  simpa [limitingInForce_iff] using c

theorem dwellAtSnapshot : Rules.DwellAtSnapshot := by
  intro p snap u limited started dwell
  refine ⟨unitAtSnapshot_of_notRunning, fun h => ⟨fun n => ?_, fun l d => ?_, fun l d z => ?_, fun l d z => ?_⟩⟩
  · have none := dwellAfter_of_notLimited n
    rw [unitAtSnapshot_of_running h (.inr (.inl none)), none]
  · obtain ⟨t, d'⟩ := Option.isSome_iff_exists.mp d
    rw [unitAtSnapshot_of_running h (.inl d), dwellAfter_of_running l d', ← d']
    exact modUnit_of_eq rfl
  · rw [unitAtSnapshot_of_running h (.inr (.inr z)), dwellAfter_of_none l d]
  · rw [unitAtSnapshot_of_zeroDwell l h d z]
    unfold Part.dwellExpired
    rw [modUnit_modUnit]
    rfl

end Sys2Proof.Machine

open Sys2Proof Sys2Proof.Machine in
/-- Settles O23, from the timers' rows and the dwell by the snapshot. -/
theorem unitTimersAndDwell : Obligations.UnitTimersAndDwell := ⟨unitTimerExpiries, dwellAtSnapshot⟩
end

section
/-! The orders to a unit (chapter 3): O26, O27. -/

namespace Sys2Proof.Machine

/-! ### Requests that are received (R179, R180) -/

/-- A request that can be received is served by its block and answered. -/
theorem request_of_receives {k : RequestKind} {tag : Byte} {f : Part → Part × Response} {p q : Part} {r : Response}
    (h : p.link.receives = true) (served : f p.arrived = (q, r)) : request k tag f p = q.reply k.byte tag r := by
  have whole : request k tag f p = (f p.arrived).1.reply k.byte tag (f p.arrived).2 := if_pos h
  rw [whole, served]

theorem forUnit_of_number {n : Byte} {u : UnitNo} (h : n.toNat = u.number)
    (order : UnitNo → Part → Part × Response) (p : Part) : forUnit n order p = order u p := by
  simp [forUnit, h]

theorem codeByte_of_number {n : Byte} {u : UnitNo} (h : n.toNat = u.number) : codeByte u.number = n := by
  rw [← h]
  exact BitVec.eq_of_toNat_eq (by simp [codeByte])

/-- The answer to a UNIT_ORDER for unit `u`, whose number came as `n` (R54). -/
def Part.unitOrderAnswers (q : Part) (u : UnitNo) (tag n : Byte) : Part :=
  q.answers .unitOrder tag [n, codeByte (q.unit u).state.code, codeByte (q.unit u).authority.code]

section
variable {p q : Part} {u : UnitNo} {tag n : Byte} {order : UnitNo → Part → Part × Response}
  (h : p.link.receives = true) (hn : n.toNat = u.number)
include h hn

/-- An order that is taken is answered with the unit as it then stands. -/
theorem request_of_taken (e : order u p.arrived = taken u q) :
    request .unitOrder tag (forUnit n order) p = q.unitOrderAnswers u tag n := by
  rw [request_of_receives h ((forUnit_of_number hn order _).trans e), Part.unitAnswer, codeByte_of_number hn]
  rfl

theorem request_of_refused {r : Reason} (e : order u p.arrived = (q, .refusal r)) :
    request .unitOrder tag (forUnit n order) p = q.refuses .unitOrder tag r :=
  request_of_receives h ((forUnit_of_number hn order _).trans e)

end

/-! ### ENABLE and DISABLE (R54, R55) -/

section
variable {p : Part} {u : UnitNo}

theorem orderEnable_of_offline (h : (p.unit u).state = .offline) :
    orderEnable u p
      = taken u
        (((p.setEnabled u true).modUnit u fun pu =>
          { pu with
            fault := none
            retriesLeft := (p.unitRecord u).startRetries
            retryPending := false }).enterUnit u .idle) := by
  simp only [orderEnable, h]

theorem orderEnable_elsewhere (h : (p.unit u).state ≠ .offline) : orderEnable u p = (p, .refusal .state) := by
  unfold orderEnable
  split
  · exact absurd ‹_› h
  all_goals rfl

theorem takesDisable_iff (pu : PumpUnit) :
    pu.takesDisable = true ↔ pu.state = .idle ∨ pu.state = .queued ∨ pu.state = .resting
      ∨ (pu.state = .tripped ∧ pu.run = false) := by
  unfold PumpUnit.takesDisable
  split <;> simp_all

end

end Sys2Proof.Machine

open Sys2Proof Sys2Proof.Machine in
/-- Settles O26, by the state that the order meets. -/
theorem enableDisable : Obligations.EnableDisable := by
  intro u tag n s hn receives p st replied flag disabled
  refine ⟨fun h => ?_, fun h => ?_, fun h => ?_, fun h => ?_⟩
  · exact next_withPart s (request_of_taken receives hn (orderEnable_of_offline h))
  · exact next_withPart s (request_of_refused receives hn (orderEnable_elsewhere h))
  · have row : orderDisable u p = taken u (p.disabled u) := if_pos ((takesDisable_iff _).mpr h)
    exact next_withPart s (congrArg Part.takeUnseenRound (request_of_taken receives hn row))
  · have refused : ¬(p.unit u).takesDisable = true := by
      rw [takesDisable_iff]
      rcases h with h | h | h | h | h | ⟨h, r⟩ <;> simp [show (p.unit u).state = _ from h]
      exact r
    have row : orderDisable u p = (p, .refusal .state) := if_neg refused
    exact next_withPart s (congrArg Part.takeUnseenRound (request_of_refused receives hn row))

namespace Sys2Proof.Machine

/-! ### HAND_START and HAND_STOP (R56) -/

section
variable {p : Part} {u : UnitNo}

theorem orderHandStart_elsewhere (h : (p.unit u).state ≠ .idle) : orderHandStart u p = (p, .refusal .state) :=
  if_pos (by simpa using h)

theorem orderHandStart_of_eligible (h : (p.unit u).state = .idle) (e : p.eligible u false = true) :
    orderHandStart u p = taken u (((p.consult u false).setAuthority u .hand).enqueue u .hand) := by
  unfold orderHandStart
  rw [if_neg (by simp [h]), if_pos e]

theorem orderHandStart_of_notEligible (h : (p.unit u).state = .idle) (e : p.eligible u false = false) :
    orderHandStart u p = (p.consult u false, .refusal .limit) := by
  unfold orderHandStart
  rw [if_neg (by simp [h]), if_neg (ne_true_of_eq_false e)]

theorem handStopped_of_queued (h : (p.unit u).state = .queued) :
    p.handStopped u = ((p.dropEntry u).enterUnit u .idle).checkIf (p.headIs u) := by
  simp only [Part.handStopped, h]

theorem handStopped_of_inService
    (h : (p.unit u).state = .priming ∨ (p.unit u).state = .starting ∨ (p.unit u).state = .running) :
    p.handStopped u = p.stopOrder u .hand := by
  unfold Part.handStopped
  rcases h with h | h | h <;> rw [h]

theorem handStopped_of_resting (h : (p.unit u).state = .resting) :
    p.handStopped u = p.modUnit u fun pu => { pu with retryPending := false } := by
  simp only [Part.handStopped, h]

theorem handStopped_elsewhere (h : (p.unit u).state = .offline ∨ (p.unit u).state = .idle
    ∨ (p.unit u).state = .stopping ∨ (p.unit u).state = .tripped) : p.handStopped u = p := by
  unfold Part.handStopped
  rcases h with h | h | h | h <;> rw [h]

end

@[simp] theorem roundDue_arrived (p : Part) : p.arrived.roundDue = p.roundDue := (UnitsAside.arrived p).roundDue

section
variable {q : Part} (h : q.roundDue = false) (tag : Byte)
include h

theorem takeDueRound_refuses (k : RequestKind) (r : Reason) (cur : Currents) :
    (q.refuses k tag r).takeDueRound cur = q.refuses k tag r :=
  takeDueRound_of_notDue (p := q.refuses k tag r) h cur

theorem takeUnseenRound_unitOrderAnswers (u : UnitNo) (n : Byte) :
    (q.unitOrderAnswers u tag n).takeUnseenRound = q.unitOrderAnswers u tag n :=
  takeUnseenRound_of_notDue (p := q.unitOrderAnswers u tag n) h

end

theorem handOrders : Rules.HandOrders := by
  intro u tag n cur s hn receives due p st replied hand stopped
  have notDue : p.roundDue = false := (roundDue_arrived _).trans due
  have stays : (stopped.unit u).state = st := by
    show ((p.setAuthority u .hand).unit u).state = st
    simp [Part.setAuthority, st]
  have started {q : Part} (e : request .unitOrder tag (forUnit n orderHandStart) s.part = q) :
      exec (.handStart tag n cur) s = .next (s.withPart (q.takeDueRound cur)) :=
    next_withPart s (congrArg (Part.takeDueRound · cur) e)
  have stopping : exec (.handStop tag n) s
      = .next (s.withPart (replied (stopped.handStopped u)).takeUnseenRound) :=
    next_withPart s (congrArg Part.takeUnseenRound (request_of_taken receives hn rfl))
  refine ⟨fun h => ?_, fun h e => ?_, fun h e => ?_, fun h => ?_, fun h => ?_, fun h => ?_, fun h => ?_⟩
  · rw [started (request_of_refused receives hn (orderHandStart_elsewhere h))]
    exact next_withPart s (takeDueRound_refuses notDue tag _ _ cur)
  · rw [started (request_of_taken receives hn (orderHandStart_of_eligible h e))]
    rfl
  · have kept : (p.consult u false).roundDue = false := (roundDue_consult p u false).trans notDue
    rw [started (request_of_refused receives hn (orderHandStart_of_notEligible h e))]
    exact next_withPart s (takeDueRound_refuses kept tag _ _ cur)
  · rw [stopping, handStopped_of_queued (stays.trans h)]
    rfl
  · rw [stopping, handStopped_of_inService (stays ▸ h)]
  · rw [stopping, handStopped_of_resting (stays.trans h)]
    exact next_withPart s (takeUnseenRound_unitOrderAnswers
      (q := stopped.modUnit u fun pu => { pu with retryPending := false }) notDue tag u n)
  · rw [stopping, handStopped_elsewhere (stays ▸ h)]
    exact next_withPart s (takeUnseenRound_unitOrderAnswers (q := stopped) notDue tag u n)

/-! ### AUTO and CLEAR (R56) -/

theorem takesClear_iff (pu : PumpUnit) :
    pu.takesClear = true ↔ pu.state = .tripped ∧ pu.trip = false ∧ pu.run = false := by
  simp [PumpUnit.takesClear, and_assoc]

/-- What CLEAR makes of a unit before its next state: no fault, and its retries anew (R56). -/
def Part.faultCleared (p : Part) (u : UnitNo) : Part :=
  (p.modUnit u fun pu =>
      { pu with
        fault := none
        retriesLeft := (p.unitRecord u).startRetries }).record .unitCleared (some u)
    ((p.unit u).fault.map fun f => (f.code : Int))

section
variable {p : Part} {u : UnitNo}

theorem cleared_of_notEnabled (h : (p.unitRecord u).enabled = false) :
    p.cleared u = (p.faultCleared u).enterUnit u .offline :=
  if_neg (ne_true_of_eq_false h)

theorem cleared_of_enabled (h : (p.unitRecord u).enabled = true) :
    p.cleared u = ((p.faultCleared u).enterResting u).restIfZero u :=
  if_pos h

end

theorem autoAndClearOrders : Rules.AutoAndClearOrders := by
  intro u tag n s hn receives p pu replied clears cleared resting
  have taken (c : clears) : orderClear u p = taken u (p.cleared u) := if_pos ((takesClear_iff _).mpr c)
  have row {q : Part} (c : clears) (e : p.cleared u = q) :
      exec (.unitClear tag n) s = .next (s.withPart (replied q)) :=
    next_withPart s (request_of_taken receives hn (e ▸ taken c))
  have rests : (p.faultCleared u).enterResting u = resting := rfl
  have record : resting.unitRecord u = p.unitRecord u := rfl
  refine ⟨next_withPart s (request_of_taken receives hn rfl), fun c => ?_,
    fun c e => row c (cleared_of_notEnabled e), fun c e r => row c ?_, fun c e r noRetry => row c ?_⟩
  · have refused : orderClear u p = (p, .refusal .state) := if_neg fun t => c ((takesClear_iff _).mp t)
    exact next_withPart s (request_of_refused receives hn refused)
  · rw [cleared_of_enabled e, rests, Part.restIfZero, record, if_neg r]
  · have still : (resting.unit u).retryPending = false := by simpa [resting, cleared, PumpUnit.enter] using noRetry
    rw [cleared_of_enabled e, rests, Part.restIfZero, record, if_pos r, endRest_of_noRetry still]

end Sys2Proof.Machine

open Sys2Proof Sys2Proof.Machine in
/-- Settles O27, from the hand orders, AUTO and CLEAR. -/
theorem handAutoClearOrders : Obligations.HandAutoClearOrders := ⟨handOrders, autoAndClearOrders⟩
end

section
/-! Queue and slot, shedding, and the effective budget (chapter 6): O34, O37, O38. -/

namespace Sys2Proof.Machine

/-! ### Entries of the queue (R97, R98) -/

theorem takesEnqueue_iff (p : Part) (u : UnitNo) (o : QueueOrigin) :
    p.takesEnqueue u o = true ↔ (p.unit u).state = .idle ∨ ((p.unit u).state = .resting ∧ o = .retry) := by
  simp [Part.takesEnqueue]

theorem takeUnseenRound_of_due {p : Part} (h : p.roundDue = true) :
    p.takeUnseenRound = { p with freeCount := p.freeCount + 1 }.immediateRound p.unseenCurrents :=
  if_pos h

theorem takeDueRound_of_due {p : Part} (h : p.roundDue = true) (cur : Currents) :
    p.takeDueRound cur = p.immediateRound cur :=
  if_pos h

theorem enqueueTaken : Rules.EnqueueTaken := by
  refine ⟨fun p u o => ?_, fun p cur => ⟨fun h => takeDueRound_of_notDue h cur,
    fun h => takeDueRound_of_due h cur, takeUnseenRound_of_notDue,
    fun h => ⟨p.unseenCurrents, takeUnseenRound_of_due h⟩⟩⟩
  intro takes joined
  have taken := takesEnqueue_iff p u o
  exact ⟨fun h => if_neg fun c => h (taken.mp c), fun h => if_pos (taken.mpr h)⟩

theorem dropEntry_of_noEntry {p : Part} {u : UnitNo} (h : ∀ e ∈ p.arbiter.queue, e.unit ≠ u) :
    p.dropEntry u = p := by
  have kept : p.arbiter.queue.filter (fun e => e.unit != u) = p.arbiter.queue := by
    rw [List.filter_eq_self]
    intro e he
    simpa using h e he
  show { p with arbiter.queue := p.arbiter.queue.filter fun e => e.unit != u } = p
  rw [kept]

theorem headIs_of_noEntry {p : Part} {u : UnitNo} (h : ∀ e ∈ p.arbiter.queue, e.unit ≠ u) :
    p.headIs u = false := by
  unfold Part.headIs
  cases hq : p.arbiter.queue with
  | nil => rfl
  | cons e behind => simpa using h e (by simp [hq])

theorem entryRemoved : Rules.EntryRemoved := by
  intro p u
  refine ⟨fun e he => ?_, ?_, fun h => ⟨dropEntry_of_noEntry h, headIs_of_noEntry h⟩, fun e behind hq => ?_,
    rfl, rfl⟩
  · simpa using (List.mem_filter.mp he).2
  · have same : (fun e : QueueEntry => decide (e.unit ≠ u)) = fun e => e.unit != u := by
      funext e
      rw [Bool.eq_iff_iff]
      simp
    rw [same]
    rfl
  · simp [Part.headIs, hq]

/-! ### The slot and its stagger (R100, R101) -/

theorem slotAndStagger : Rules.SlotAndStagger :=
  ⟨fun _ _ => ⟨fun h => if_neg h, fun h => if_pos h⟩, fun s h => next_withPart s (if_pos h)⟩

end Sys2Proof.Machine

open Sys2Proof Sys2Proof.Machine in
/-- Settles O34, from the rules of the queue and of the slot. -/
theorem enqueueAndSlot : Obligations.EnqueueAndSlot := ⟨enqueueTaken, entryRemoved, slotAndStagger⟩

namespace Sys2Proof.Machine

/-! ### Shedding (R112 to R115) -/

section
variable (p : Part)

theorem sheddable_eq (a : Authority) :
    p.sheddable a
      = fun u => decide ((p.unit u).authority = a ∧ (p.unit u).state = .running ∧ 0 < (p.unit u).reserved) := by
  funext u
  rw [Bool.eq_iff_iff]
  simp [Part.sheddable, and_assoc]

theorem inStart_iff (pu : PumpUnit) : pu.inStart = true ↔ pu.state = .priming ∨ pu.state = .starting := by
  unfold PumpUnit.inStart
  split <;> simp_all

/-- The target of a shed is the first that the three walks down the stop order find (R113). -/
theorem shedTarget_eq :
    p.shedTarget
      = ((p.stopRanking.find? (p.sheddable .auto)).or (p.stopRanking.find? (p.sheddable .hand))).or
        (p.stopRanking.find? fun u => (p.unit u).inStart) := by
  unfold Part.shedTarget
  cases p.stopRanking.find? (p.sheddable .auto) with
  | some u => rfl
  | none => cases p.stopRanking.find? (p.sheddable .hand) <;> rfl

theorem shedOne_of_target {u : UnitNo} (h : p.shedTarget = some u) :
    p.shedOne
      = (p.record .shedStop (some u)
          (some ((p.arbiter.committed : Int) - p.arbiter.effective))).stopOrder u .shed := by
  simp only [Part.shedOne, h]

theorem shedOne_of_noTarget (h : p.shedTarget = none) : p.shedOne = p := by
  simp only [Part.shedOne, h]

theorem shedTest_of_quiet (h : p.arbiter.shed = .shedding ∨ p.arbiter.committed ≤ p.arbiter.effective) :
    p.shedTest = p := by
  refine if_neg ?_
  rcases h with h | h
  · simp [h]
  · simp [Nat.not_lt.mpr h]

theorem shedTest_of_above (h : p.arbiter.shed = .normal) (above : p.arbiter.effective < p.arbiter.committed) :
    p.shedTest = ({ p with arbiter.shed := .shedding }.startShedDelay).shedOne :=
  if_pos (by simp [h, above])

end

theorem shedByRules : Rules.ShedByRules := by
  intro p order running starting target shedding
  have walks : p.shedTarget = target := by
    have starts : (fun u => (p.unit u).inStart) = starting := by
      funext u
      rw [Bool.eq_iff_iff, inStart_iff]
      simp [starting]
    rw [shedTarget_eq, sheddable_eq, sheddable_eq, starts]
    rfl
  exact ⟨shedTest_of_quiet p, shedTest_of_above p, fun u h => shedOne_of_target p (walks.trans h),
    fun h => shedOne_of_noTarget p (walks.trans h)⟩

theorem shedDelayExpiry : Rules.ShedDelayExpiry := by
  intro s p again running
  refine ⟨fun above => ?_, fun within => ?_⟩
  · exact next_withPart s ((if_pos running).trans (if_pos above))
  · exact next_withPart s ((if_pos running).trans (if_neg (Nat.not_lt.mpr within)))

end Sys2Proof.Machine

open Sys2Proof Sys2Proof.Machine in
/-- Settles O37, from the shed test, the target, and the expiry of the shed delay. -/
theorem shedding : Obligations.Shedding := ⟨shedByRules, shedDelayExpiry⟩

namespace Sys2Proof.Machine

/-! ### The effective budget (R108 to R110) -/

section
variable {p : Part} {old : Nat}

theorem budgetMoved_of_rise (h : old < p.arbiter.effective) : p.budgetMoved old = p.shedOver.grantCheck := if_pos h

theorem budgetMoved_of_fall (h : p.arbiter.effective < old) : p.budgetMoved old = p.shedTest :=
  (if_neg (Nat.lt_asymm h)).trans (if_pos h)

theorem budgetMoved_of_same (h : p.arbiter.effective = old) : p.budgetMoved old = p := by
  subst h
  exact (if_neg (Nat.lt_irrefl _)).trans (if_neg (Nat.lt_irrefl _))

end

section
variable {s : State} {q : Part} {c : Instr}
  (moved : exec c s = .next (s.withPart (q.budgetMoved s.part.arbiter.effective).takeUnseenRound))
include moved

/-- What a row that acts on a moved budget does, by the way the budget moved (R108). -/
theorem exec_of_budgetMoved :
    (s.part.arbiter.effective < q.arbiter.effective →
        exec c s = .next (s.withPart q.shedOver.grantCheck.takeUnseenRound))
      ∧ (q.arbiter.effective < s.part.arbiter.effective → exec c s = .next (s.withPart q.shedTest.takeUnseenRound))
      ∧ (q.arbiter.effective = s.part.arbiter.effective → exec c s = .next (s.withPart q.takeUnseenRound)) := by
  refine ⟨fun h => ?_, fun h => ?_, fun h => ?_⟩
  · rw [moved, budgetMoved_of_rise h]
  · rw [moved, budgetMoved_of_fall h]
  · rw [moved, budgetMoved_of_same h]

end

theorem budgetAndCurtail : Rules.BudgetAndCurtail := by
  refine ⟨fun p => ?_, fun s => ?_⟩
  · intro active budget q
    refine ⟨budgetMoved_of_rise (p := q), budgetMoved_of_fall (p := q), fun h => ?_⟩
    have same : q = p := by
      show { p with arbiter.effective := budget } = p
      rw [h]
    exact (budgetMoved_of_same (p := q) h).trans same
  · intro p active low moved ends
    refine ⟨fun off => ?_, fun on => ?_⟩
    · exact exec_of_budgetMoved (q := moved true low) (next_withPart s (if_neg (ne_true_of_eq_false off)))
    · exact exec_of_budgetMoved (q := moved false active) (next_withPart s (if_pos on))

/-- The station budget that SET_BUDGET applied stays through what the change brings about. -/
theorem config_reformBudget (p : Part) : p.reformBudget.config = p.config :=
  (BlocksOnly.unitMoves.budgetMoved p.formBudget _).config

theorem setBudget : Rules.SetBudget := by
  intro tag budget s receives p applied q
  have clamped : clampNat 0 5000 budget.toNat = applied := by
    unfold clampNat
    omega
  have kept : q.config.station.stationBudget = applied :=
    congrArg (fun c => c.station.stationBudget) (config_reformBudget _)
  have served : serveSetBudget budget p = (q, .answer (beBytes 2 applied ++ beBytes 2 q.arbiter.effective
      ++ beBytes 2 q.arbiter.committed)) := by
    unfold serveSetBudget
    rw [clamped]
    exact congrArg (fun n => (q, Response.answer (beBytes 2 n ++ beBytes 2 q.arbiter.effective
      ++ beBytes 2 q.arbiter.committed))) kept
  exact next_withPart s (congrArg Part.takeUnseenRound (request_of_receives receives served))

end Sys2Proof.Machine

open Sys2Proof Sys2Proof.Machine in
/-- Settles O38, from the budget formed afresh, CURTAIL, and SET_BUDGET. -/
theorem effectiveBudget : Obligations.EffectiveBudget := ⟨budgetAndCurtail, setBudget⟩
end

section
/-! The mains loss, the accounting second, and the counters (chapters 9 and 10): O46, O48, O49. -/

namespace Sys2Proof.Machine

/-! ### Lists in order -/

section
variable {α : Type} {le : α → α → Bool}

theorem insertBy_perm (x : α) (l : List α) : (insertBy le x l).Perm (x :: l) := by
  induction l with
  | nil => exact .refl _
  | cons y ys ih =>
    unfold insertBy
    split
    · exact .refl _
    · exact (ih.cons y).trans (.swap x y ys)

theorem sortBy_perm (l : List α) : (sortBy le l).Perm l := by
  induction l with
  | nil => exact .refl _
  | cons x xs ih => exact (insertBy_perm x _).trans (ih.cons x)

/-- An element joins a list in order where the comparison says of it and each element which comes first. -/
theorem insertBy_pairwise {R : α → α → Prop} (trans : ∀ {a b c}, R a b → R b c → R a c) {x : α} {l : List α}
    (sorted : l.Pairwise R) (first : ∀ y ∈ l, le x y = true → R x y)
    (after : ∀ y ∈ l, le x y = false → R y x) : (insertBy le x l).Pairwise R := by
  induction l with
  | nil => simp [insertBy]
  | cons y ys ih =>
    obtain ⟨least, rest⟩ := List.pairwise_cons.mp sorted
    unfold insertBy
    split
    · rename_i h
      have xy : R x y := first y (by simp) h
      refine List.pairwise_cons.mpr ⟨fun z hz => ?_, sorted⟩
      rcases List.mem_cons.mp hz with rfl | hz
      · exact xy
      · exact trans xy (least z hz)
    · rename_i h
      have yx : R y x := after y (by simp) (by simpa using h)
      refine List.pairwise_cons.mpr ⟨fun z hz => ?_, ih rest (fun w hw => first w (by simp [hw]))
        (fun w hw => after w (by simp [hw]))⟩
      rcases List.mem_cons.mp ((insertBy_perm x ys).subset hz) with rfl | hz
      · exact yx
      · exact least z hz

/-- A list put in order is in the order `R` that the comparison gives two elements of `S`, in which the list stood. -/
theorem sortBy_pairwise {R S : α → α → Prop} (trans : ∀ {a b c}, R a b → R b c → R a c)
    (first : ∀ {a b}, S a b → le a b = true → R a b) (after : ∀ {a b}, S a b → le a b = false → R b a)
    {l : List α} (h : l.Pairwise S) : (sortBy le l).Pairwise R := by
  induction l with
  | nil => exact .nil
  | cons x xs ih =>
    obtain ⟨hx, rest⟩ := List.pairwise_cons.mp h
    have seen (y : α) (hy : y ∈ sortBy le xs) : S x y := hx y ((sortBy_perm xs).subset hy)
    exact insertBy_pairwise (le := le) (R := R) trans (ih rest) (fun y hy => first (seen y hy))
      fun y hy => after (seen y hy)

end

/-! ### The restart set (R154) -/

/-- What `appendNew` adds: elements of the second list that are new, in its order. -/
theorem appendNew_eq (us : List UnitNo) : ∀ acc : List UnitNo, ∃ added : List UnitNo,
    appendNew acc us = acc ++ added ∧ added.Sublist us ∧ (∀ u ∈ us, u ∈ acc ++ added)
      ∧ (acc.Nodup → (acc ++ added).Nodup) := by
  induction us with
  | nil => exact fun acc => ⟨[], by simp [appendNew]⟩
  | cons u us ih =>
    intro acc
    by_cases h : u ∈ acc
    · obtain ⟨added, e, sub, all, nd⟩ := ih acc
      refine ⟨added, ?_, sub.cons u, ?_, nd⟩
      · rw [← e, appendNew, if_pos (by simpa using h)]
      · intro v hv
        rcases List.mem_cons.mp hv with rfl | hv
        · exact List.mem_append_left _ h
        · exact all v hv
    · obtain ⟨added, e, sub, all, nd⟩ := ih (acc ++ [u])
      have shift : acc ++ [u] ++ added = acc ++ u :: added := by simp
      rw [shift] at e all nd
      refine ⟨u :: added, ?_, sub.cons_cons u, ?_, fun hacc => nd ?_⟩
      · rw [← e, appendNew, if_neg (by simpa using h)]
      · intro v hv
        rcases List.mem_cons.mp hv with rfl | hv
        · simp
        · exact all v hv
      · simpa [List.nodup_append, hacc] using fun a ha (e : a = u) => h (e ▸ ha)

/-- The seconds since the last grant of a unit that has one. -/
def Part.grantAge (p : Part) (u : UnitNo) : Option Nat :=
  (p.unit u).lastGrant.map (secondsSince p.accounting.uptime)

/-- Grant order (R154): the older grant first, units without one last, ties by number. -/
def GrantOrder (p : Part) (a b : UnitNo) : Prop :=
  match p.grantAge a, p.grantAge b with
  | some x, some y => y < x ∨ (y = x ∧ a.number < b.number)
  | some _, none => True
  | none, some _ => False
  | none, none => a.number < b.number

theorem grantedBefore_eq (p : Part) (a b : UnitNo) :
    p.grantedBefore a b
      = match p.grantAge a, p.grantAge b with
        | some x, some y => decide (y ≤ x)
        | _, none => true
        | none, some _ => false := by
  unfold Part.grantedBefore Part.grantAge
  cases (p.unit a).lastGrant <;> cases (p.unit b).lastGrant <;> rfl

namespace GrantOrder

variable {p : Part} {a b c : UnitNo}

theorem trans (h : GrantOrder p a b) (k : GrantOrder p b c) : GrantOrder p a c := by
  unfold GrantOrder at *
  cases ha : p.grantAge a <;> cases hb : p.grantAge b <;> cases hc : p.grantAge c <;> simp only [ha, hb, hc] at * <;>
    omega

theorem of_before (n : a.number < b.number) (h : p.grantedBefore a b = true) : GrantOrder p a b := by
  rw [grantedBefore_eq] at h
  unfold GrantOrder
  cases ha : p.grantAge a <;> cases hb : p.grantAge b <;> grind

theorem of_notBefore (_ : a.number < b.number) (h : p.grantedBefore a b = false) : GrantOrder p b a := by
  rw [grantedBefore_eq] at h
  unfold GrantOrder
  cases ha : p.grantAge a <;> cases hb : p.grantAge b <;> grind

end GrantOrder

theorem servedAtLoss_iff (p : Part) (u : UnitNo) :
    p.servedAtLoss u = true ↔ p.arbiter.slot = some u ∨ (p.unit u).delivering = true
      ∨ ((p.unit u).state = .running ∧ (p.unit u).runLossTimer.isSome = true) := by
  simp [Part.servedAtLoss, or_assoc]

/-- The units that the loss took in service, in grant order (R154). -/
def Part.servedUnits (p : Part) : List UnitNo := sortBy p.grantedBefore (UnitNo.all.filter p.servedAtLoss)

theorem mem_servedUnits (p : Part) (u : UnitNo) : u ∈ p.servedUnits ↔ p.servedAtLoss u = true := by
  rw [Part.servedUnits, (sortBy_perm _).mem_iff, List.mem_filter]
  exact and_iff_right (by cases u <;> decide)

theorem nodup_servedUnits (p : Part) : p.servedUnits.Nodup :=
  (sortBy_perm _).nodup_iff.mpr (List.Nodup.filter _ (by decide))

theorem pairwise_servedUnits (p : Part) : p.servedUnits.Pairwise (GrantOrder p) := by
  have ascending : UnitNo.all.Pairwise fun a b => a.number < b.number := by decide
  exact sortBy_pairwise (R := GrantOrder p) (S := fun a b => a.number < b.number) GrantOrder.trans
    GrantOrder.of_before GrantOrder.of_notBefore (ascending.filter _)

theorem restartSetRebuilt : Rules.RestartSetRebuilt := by
  intro p ago served waiting before
  obtain ⟨second, e₂, sub₂, all₂, nd₂⟩ := appendNew_eq p.restartEntries p.servedUnits
  obtain ⟨third, e₃, sub₃, all₃, nd₃⟩ := appendNew_eq p.supervision.restartSet (p.servedUnits ++ second)
  have whole : p.rebuiltRestartSet = p.servedUnits ++ second ++ third := by
    rw [← e₃, ← e₂]
    rfl
  have ordered : p.servedUnits.Pairwise before := by
    refine (pairwise_servedUnits p).imp fun {a b} h => ?_
    unfold GrantOrder Part.grantAge at h
    simp only [before]
    cases ha : (p.unit a).lastGrant <;> cases hb : (p.unit b).lastGrant <;> (rw [ha, hb] at h; exact h)
  refine ⟨p.servedUnits, second, third, whole, whole ▸ nd₃ (nd₂ (nodup_servedUnits p)), fun u => ?_, ordered,
    sub₂, sub₃, fun u hu => List.mem_append.mp (all₂ u hu), fun u hu => whole ▸ all₃ u hu⟩
  exact (mem_servedUnits p u).trans (servedAtLoss_iff p u)

/-! ### The mains loss (R153) -/

theorem mainsLossSteps : Rules.MainsLossSteps := by
  intro cur s good p lost emptied unloaded q
  exact next_withPart s (if_pos good)

end Sys2Proof.Machine

open Sys2Proof Sys2Proof.Machine in
/-- Settles O46, from the steps of the loss and the restart set it rebuilds. -/
theorem mainsLoss : Obligations.MainsLoss := ⟨mainsLossSteps, restartSetRebuilt⟩

namespace Sys2Proof.Machine

/-! ### The accounting second (R163 to R165) -/

/-- A word counted on is the word of the next number. -/
theorem succ_eq_ofNat (x : Word32) : x + 1#32 = BitVec.ofNat 32 (x.toNat + 1) := by
  apply BitVec.eq_of_toNat_eq
  simp [BitVec.toNat_add]

theorem add_ofNat_eq_ofNat (x : BitVec 48) (n : Nat) : x + BitVec.ofNat 48 n = BitVec.ofNat 48 (x.toNat + n) := by
  apply BitVec.eq_of_toNat_eq
  simp [BitVec.toNat_add]

theorem pumpedSum_eq (p : Part) :
    p.pumpedSum
      = p.pumped .u1 + p.pumped .u2 + p.pumped .u3 + p.pumped .u4 + p.pumped .u5 + p.pumped .u6 := by
  simp only [Part.pumpedSum, UnitNo.all, List.map_cons, List.map_nil, List.sum_cons, List.sum_nil]
  omega

theorem runSecondsNext_eq (p : Part) (u : UnitNo) :
    p.runSecondsNext u
      = if (p.unit u).state = .running then min (p.accounting.totals.runSeconds.get u + 1) 4294967295
        else p.accounting.totals.runSeconds.get u := by
  simp [Part.runSecondsNext, addSaturating32]

end Sys2Proof.Machine

open Sys2Proof Sys2Proof.Machine in
/-- Settles O48: what the second counts, before the plan is told. -/
theorem accountingSecond : Obligations.AccountingSecond := by
  intro s p a litres sum totals clock uptime q
  have litresSum : p.pumpedSum = sum := pumpedSum_eq p
  have integrated : p.integrated = totals := by
    unfold Part.integrated
    rw [funext (runSecondsNext_eq p), litresSum, add_ofNat_eq_ofNat]
    rfl
  have counted : p.countSecond = q := by
    unfold Part.countSecond
    rw [integrated, litresSum, succ_eq_ofNat, succ_eq_ofNat]
  exact next_withPart s (congrArg (fun r => r.activate.takeUnseenRound) counted)

namespace Sys2Proof.Machine

/-! ### Counters and clock (R167 to R169) -/

theorem accounting_recordActivation (p : Part) (n : Nat) : (p.recordActivation n).accounting = p.accounting := by
  unfold Part.recordActivation
  simp only
  split <;> split <;> rfl

/-- An activation leaves clock and uptime as they were. -/
theorem clock_activate (p : Part) :
    p.activate.accounting.clock = p.accounting.clock ∧ p.activate.accounting.uptime = p.accounting.uptime := by
  unfold Part.activate
  split
  · exact ⟨rfl, rfl⟩
  · have acted (q : Part) : BlocksOnly q.formBudget q.reformBudget := BlocksOnly.unitMoves.budgetMoved _ _
    refine ⟨(acted _).clock.trans ?_, (acted _).uptime.trans ?_⟩
    · exact congrArg Accounting.clock (accounting_recordActivation _ _)
    · exact congrArg Accounting.uptime (accounting_recordActivation _ _)

theorem countersBody_eq (i : CounterImage) :
    countersBody i
      = beBytes 4 i.clock.toNat ++ beBytes 4 i.uptime.toNat ++ beBytes 6 i.totals.stationVolume.toNat
        ++ unitCounters i.totals .u1 ++ unitCounters i.totals .u2 ++ unitCounters i.totals .u3
        ++ unitCounters i.totals .u4 ++ unitCounters i.totals .u5 ++ unitCounters i.totals .u6 := by
  simp [countersBody, UnitNo.all, List.append_assoc]

@[simp] theorem length_unitCounters (t : Totals) (u : UnitNo) : (unitCounters t u).length = 14 := by
  simp [unitCounters]

theorem length_countersBody (i : CounterImage) : (countersBody i).length = 98 := by
  simp [countersBody_eq]

theorem serveSetClock_eq (clock : Word32) (p : Part) :
    serveSetClock clock p
      = (({ p with accounting.clock := clock } : Part).activate,
        .answer (beBytes 4 clock.toNat ++ beBytes 4 p.accounting.uptime.toNat)) := by
  obtain ⟨c, t⟩ := clock_activate { p with accounting.clock := clock }
  simp only [serveSetClock, c, t]

end Sys2Proof.Machine

open Sys2Proof Sys2Proof.Machine in
/-- Settles O49: the three requests of the accounting unit. -/
theorem countersAndClock : Obligations.CountersAndClock := by
  intro tag s receives p i counters body zero
  have bytes : countersBody i = body := countersBody_eq i
  refine ⟨next_withPart s (request_of_receives receives (congrArg (fun b => (p, Response.answer b)) bytes)),
    bytes ▸ length_countersBody i, fun clock => ?_, next_withPart s (request_of_receives receives rfl)⟩
  exact next_withPart s (congrArg Part.takeUnseenRound (request_of_receives receives (serveSetClock_eq clock p)))
end

section
/-! The answers to ASK_STATION and ASK_GAUGES (chapter 11): O54. -/

namespace Sys2Proof.Machine

/-! ### Bytes at an offset -/

/-- The bytes from `off` are those of the field. -/
def Holds (body : List Byte) (off : Nat) (field : List Byte) : Prop := (body.drop off).take field.length = field

/-! ### Lists of a fixed length (R188) -/

theorem encodeUnits_eq (n : Nat) (us : List UnitNo) :
    encodeUnits n us = (List.range n).map fun i => codeByte (unitField us[i]?) := by
  induction n generalizing us with
  | zero => rfl
  | succ n ih =>
    rw [List.range_succ_eq_map, List.map_cons, List.map_map]
    cases us with
    | nil => simp [encodeUnits, ih, Function.comp_def, unitField, codeByte]
    | cons u us => simp [encodeUnits, ih, Function.comp_def, unitField]

/-- The bytes of one place of the queue: 0 where no entry stands (R188). -/
def Part.placeBytes (p : Part) (e : Option QueueEntry) : List Byte :=
  codeByte (unitField (e.map (·.unit))) :: codeByte ((e.map (·.origin.code)).getD 0)
    :: beBytes 4 ((e.map fun e => secondsSince p.accounting.uptime e.queuedAt).getD 0)

theorem placeBytes_none (p : Part) : p.placeBytes none = [0#8, 0#8, 0#8, 0#8, 0#8, 0#8] := by
  simp [Part.placeBytes, unitField, codeByte, beBytes]

theorem placeBytes_some (p : Part) (e : QueueEntry) : p.placeBytes (some e) = p.entryBytes e := rfl

theorem entriesBytes_eq (p : Part) (n : Nat) (q : List QueueEntry) :
    p.entriesBytes n q = (List.range n).flatMap fun i => p.placeBytes q[i]? := by
  induction n generalizing q with
  | zero => rfl
  | succ n ih =>
    rw [List.range_succ_eq_map, List.flatMap_cons, List.flatMap_map]
    cases q with
    | nil => simp [Part.entriesBytes, ih, placeBytes_none]
    | cons e es => simp [Part.entriesBytes, ih, placeBytes_some]

/-! ### A field that may be absent -/

section
variable {body : List Byte} {off : Nat}

/-- A field formed from an optional value, with the value and without it. -/
theorem Holds.of_option {α : Type} {F : Option α → List Byte} {o : Option α} (h : Holds body off (F o)) :
    (∀ a, o = some a → Holds body off (F (some a))) ∧ (o = none → Holds body off (F none)) :=
  ⟨fun _ e => e ▸ h, fun e => e ▸ h⟩

/-- The seconds left on a timer: absent, or one of the two values that an accounting phase leaves open (R185). -/
theorem Holds.timerLeft {p : Part} {k : Nat} {timer : Option Timer}
    (h : Holds body off (word16Bytes (p.timerLeft k timer))) :
    (timer = none → Holds body off (beBytes 2 65535))
      ∧ ∀ t : Timer, timer = some t →
        Holds body off (beBytes 2 (max 1 (min t.duration
            (t.duration - (p.accounting.uptime - t.startedAt).toNat))))
          ∨ Holds body off (beBytes 2 (max 1 (min t.duration
            (t.duration - (p.accounting.uptime - t.startedAt).toNat + 1)))) := by
  obtain ⟨-, absent⟩ := h.of_option (F := fun t => word16Bytes (p.timerLeft k t))
  refine ⟨absent, fun t running => ?_⟩
  subst running
  cases phase : Config.phaseShort (p.freeCount + k) with
  | false =>
    left
    simpa [word16Bytes, Part.timerLeft, secondsLeft, secondsSince, weight, phase] using h
  | true =>
    right
    simpa [word16Bytes, Part.timerLeft, secondsLeft, secondsSince, weight, phase] using h

end

/-! ### The station answer (R188) -/

/-- The station answer with the lists of fixed length written out by place. -/
theorem stationBody_eq (p : Part) :
    p.stationBody
      = [codeByte p.supervision.mode.code] ++ word16Bytes (p.timerLeft 0 p.supervision.timer)
        ++ [codeByte p.supervision.mains.code] ++ word16Bytes (p.timerLeft 1 p.supervision.settle)
        ++ secondsBytes (p.supervision.lostAt.map (secondsSince p.accounting.uptime))
        ++ [codeByte p.supervision.restartSet.length]
        ++ ((List.range 6).map fun i => codeByte (unitField p.supervision.restartSet[i]?))
        ++ ([codeByte p.arbiter.shed.code] ++ beBytes 2 p.arbiter.committed ++ beBytes 2 p.arbiter.effective
        ++ beBytes 2 p.config.station.stationBudget ++ beBytes 2 p.config.station.curtailedBudget
        ++ [markByte p.arbiter.curtail, markByte p.plan.budget.isSome, codeByte (unitField p.arbiter.slot),
            markByte p.arbiter.stagger.isSome, markByte p.arbiter.shedDelay.isSome,
            codeByte p.arbiter.queue.length]
        ++ ((List.range 6).flatMap fun i => p.placeBytes p.arbiter.queue[i]?))
        ++ ([markByte p.dispatcher.hold] ++ beBytes 2 p.dispatcher.demand
        ++ [codeByte p.config.station.rankingMode.code]
        ++ ((List.range 6).map fun i => codeByte (unitField p.dispatcher.startOrder[i]?))
        ++ [codeByte p.estimator.state.code] ++ beBytes 2 p.estimator.inflow
        ++ [codeByte p.estimator.ring.length] ++ beBytes 4 p.estimator.intervalVolume)
        ++ p.machineBytes := by
  unfold Part.stationBody Part.supervisionBytes Part.arbiterBytes Part.dispatchBytes
  rw [encodeUnits_eq, encodeUnits_eq, entriesBytes_eq]

theorem length_stationBody (p : Part) : p.stationBody.length = 100 := by
  rw [stationBody_eq]
  rfl

section
variable (p : Part)

theorem holds_supervision :
    Holds p.stationBody 0 [codeByte p.supervision.mode.code]
      ∧ Holds p.stationBody 1 (word16Bytes (p.timerLeft 0 p.supervision.timer))
      ∧ Holds p.stationBody 3 [codeByte p.supervision.mains.code]
      ∧ Holds p.stationBody 4 (word16Bytes (p.timerLeft 1 p.supervision.settle))
      ∧ Holds p.stationBody 6 (secondsBytes (p.supervision.lostAt.map (secondsSince p.accounting.uptime)))
      ∧ Holds p.stationBody 10 [codeByte p.supervision.restartSet.length]
      ∧ ∀ i < 6, Holds p.stationBody (11 + i) [codeByte (unitField p.supervision.restartSet[i]?)] := by
  rw [stationBody_eq]
  refine ⟨rfl, rfl, rfl, rfl, rfl, rfl, fun i hi => ?_⟩
  interval_cases i <;> rfl

theorem holds_arbiter :
    Holds p.stationBody 17 [codeByte p.arbiter.shed.code]
      ∧ Holds p.stationBody 18 (beBytes 2 p.arbiter.committed)
      ∧ Holds p.stationBody 20 (beBytes 2 p.arbiter.effective)
      ∧ Holds p.stationBody 22 (beBytes 2 p.config.station.stationBudget)
      ∧ Holds p.stationBody 24 (beBytes 2 p.config.station.curtailedBudget)
      ∧ Holds p.stationBody 26 [markByte p.arbiter.curtail]
      ∧ Holds p.stationBody 27 [markByte p.plan.budget.isSome]
      ∧ Holds p.stationBody 28 [codeByte (unitField p.arbiter.slot)]
      ∧ Holds p.stationBody 29 [markByte p.arbiter.stagger.isSome]
      ∧ Holds p.stationBody 30 [markByte p.arbiter.shedDelay.isSome]
      ∧ Holds p.stationBody 31 [codeByte p.arbiter.queue.length]
      ∧ ∀ i < 6, Holds p.stationBody (32 + 6 * i) (p.placeBytes p.arbiter.queue[i]?) := by
  rw [stationBody_eq]
  refine ⟨rfl, rfl, rfl, rfl, rfl, rfl, rfl, rfl, rfl, rfl, rfl, fun i hi => ?_⟩
  interval_cases i <;> rfl

theorem holds_dispatch :
    Holds p.stationBody 68 [markByte p.dispatcher.hold]
      ∧ Holds p.stationBody 69 (beBytes 2 p.dispatcher.demand)
      ∧ Holds p.stationBody 71 [codeByte p.config.station.rankingMode.code]
      ∧ (∀ i < 6, Holds p.stationBody (72 + i) [codeByte (unitField p.dispatcher.startOrder[i]?)])
      ∧ Holds p.stationBody 78 [codeByte p.estimator.state.code]
      ∧ Holds p.stationBody 79 (beBytes 2 p.estimator.inflow)
      ∧ Holds p.stationBody 81 [codeByte p.estimator.ring.length]
      ∧ Holds p.stationBody 82 (beBytes 4 p.estimator.intervalVolume) := by
  rw [stationBody_eq]
  refine ⟨rfl, rfl, rfl, fun i hi => ?_, rfl, rfl, rfl, rfl⟩
  interval_cases i <;> rfl

/-- Sluice, cleaner, store and link flags take one byte each. -/
theorem holds_machines (i : Fin 14) : Holds p.stationBody (86 + i) [p.machineBytes.get i] := by
  rw [stationBody_eq]
  fin_cases i <;> rfl

end

theorem stationAnswerFields : Rules.StationAnswerFields := by
  intro p body holds mark ago left order supervision arbiter dispatch machines
  have places (off : Nat) (us : List UnitNo) (h : ∀ i < 6, Holds body (off + i) [codeByte (unitField us[i]?)]) :
      order off us :=
    fun i hi => (h i hi).of_option (F := fun u => [codeByte (unitField u)])
  refine ⟨length_stationBody p, ?_, ?_, ?_, ?_⟩
  · obtain ⟨mode, timer, mains, settle, lostAt, restarts, restartSet⟩ := holds_supervision p
    obtain ⟨lost, notLost⟩ := lostAt.of_option
      (F := fun t : Option Word32 => secondsBytes (t.map (secondsSince p.accounting.uptime)))
    exact ⟨mode, timer.timerLeft, mains, settle.timerLeft, lost, notLost, restarts, places 11 _ restartSet⟩
  · obtain ⟨shed, committed, effective, budget, curtailed, curtail, override, slot, stagger, delay, queued,
      entries⟩ := holds_arbiter p
    obtain ⟨held, free⟩ := slot.of_option (F := fun u => [codeByte (unitField u)])
    refine ⟨shed, committed, effective, budget, curtailed, curtail, override, held, free, stagger, delay, queued,
      fun i hi => ?_⟩
    obtain ⟨entry, noEntry⟩ := (entries i hi).of_option (F := p.placeBytes)
    exact ⟨entry, fun none => placeBytes_none p ▸ noEntry none⟩
  · obtain ⟨hold, demand, ranking, startOrder, state, inflow, ring, volume⟩ := holds_dispatch p
    exact ⟨hold, demand, ranking, places 72 _ startOrder, state, inflow, ring, volume⟩
  · have byte := holds_machines p
    obtain ⟨cause, noCause⟩ := (byte 3).of_option
      (F := fun c : Option CloseCause => [codeByte ((c.map CloseCause.code).getD 0)])
    obtain ⟨rake, noRake⟩ := (byte 7).of_option
      (F := fun c : Option RakeCause => [codeByte ((c.map RakeCause.code).getD 0)])
    exact ⟨byte 0, byte 1, byte 2, cause, noCause, byte 4, byte 5, byte 6, rake, noRake, byte 8, byte 9, byte 10,
      byte 11, byte 12, byte 13⟩

/-! ### The gauges answer (R186) -/

section
variable {p : Part} {snap : Snapshot} (h : p.gauge.snapshot = some snap)
include h

theorem gaugesBody_of_snapshot :
    p.gaugesBody
      = snapshotBytes snap ++ p.channelBytes .ga ++ p.channelBytes .gb ++ p.channelBytes .go
        ++ p.channelBytes .gs := by
  rw [Part.gaugesBody, h]

theorem length_gaugesBody : p.gaugesBody.length = 40 := by
  rw [gaugesBody_of_snapshot h]
  rfl

theorem holds_snapshot :
    Holds p.gaugesBody 0 (beBytes 4 snap.time.toNat) ∧ Holds p.gaugesBody 4 (levelBytes snap.inner)
      ∧ Holds p.gaugesBody 6 [codeByte snap.innerQuality.code] ∧ Holds p.gaugesBody 7 (levelBytes snap.outer)
      ∧ Holds p.gaugesBody 9 [codeByte snap.outerQuality.code] ∧ Holds p.gaugesBody 10 (levelBytes snap.screen)
      ∧ Holds p.gaugesBody 12 (beInt 4 (snap.rackLoss.getD (-2147483648)))
      ∧ Holds p.gaugesBody 16 [codeByte snap.rack.code] ∧ Holds p.gaugesBody 17 [markByte snap.floatHigh]
      ∧ Holds p.gaugesBody 18 [markByte snap.floatLow] ∧ Holds p.gaugesBody 19 [codeByte snap.mode.code] := by
  rw [gaugesBody_of_snapshot h]
  exact ⟨rfl, rfl, rfl, rfl, rfl, rfl, rfl, rfl, rfl, rfl, rfl⟩

/-- The five bytes of a channel in the answer. -/
def gaugesOffset : ChannelName → Nat
  | .ga => 20
  | .gb => 25
  | .go => 30
  | .gs => 35

theorem holds_channel (n : ChannelName) :
    Holds p.gaugesBody (gaugesOffset n)
        [markByte (p.config.gauges.get n).fitted, codeByte (p.gauge.channels.get n).state.code]
      ∧ Holds p.gaugesBody (gaugesOffset n + 2) [codeByte (p.gauge.channels.get n).state.reasonCode]
      ∧ Holds p.gaugesBody (gaugesOffset n + 3) (levelBytes (p.channelLevel n)) := by
  rw [gaugesBody_of_snapshot h]
  cases n <;> exact ⟨rfl, rfl, rfl⟩

end

theorem reasonCode_of_notInvalid {c : ChannelState} (h : ∀ r, c ≠ .invalid r) : c.reasonCode = 0 := by
  cases c with
  | invalid r => exact absurd rfl (h r)
  | notFitted | init | valid => rfl

theorem gaugesAnswerFields : Rules.GaugesAnswerFields := by
  intro p snap h body holds mark level channel
  have levels (off : Nat) (l : Option Int) (k : Holds body off (levelBytes l)) : level off l := k.of_option
  have channels (n : ChannelName) : channel (gaugesOffset n) n := by
    obtain ⟨state, reason, value⟩ := holds_channel h n
    refine ⟨state, fun r invalid => ?_, fun valid => ?_, levels _ _ value⟩
    · rw [show (p.gauge.channels.get n).state = .invalid r from invalid] at reason
      cases r <;> exact reason
    · rw [reasonCode_of_notInvalid valid] at reason
      exact reason
  obtain ⟨time, inner, innerQuality, outer, outerQuality, screen, rackLoss, rack, high, low, mode⟩ :=
    holds_snapshot h
  obtain ⟨loss, noLoss⟩ := rackLoss.of_option (F := fun l : Option Int => beInt 4 (l.getD (-2147483648)))
  exact ⟨length_gaugesBody h, time, levels _ _ inner, innerQuality, levels _ _ outer, outerQuality,
    levels _ _ screen, loss, noLoss, rack, high, low, mode, channels .ga, channels .gb, channels .go, channels .gs⟩

/-! ### Served (R15, R183) -/

theorem stationAndGaugesServed : Rules.StationAndGaugesServed := by
  intro tag cur s receives p r
  exact ⟨next_withPart s (request_of_receives receives rfl), next_withPart s (request_of_receives receives rfl),
    rfl⟩

end Sys2Proof.Machine

open Sys2Proof Sys2Proof.Machine in
/-- Settles O54: each answer is its fields in a row. -/
theorem stationAndGaugesAsked : Obligations.StationAndGaugesAsked :=
  ⟨stationAndGaugesServed, stationAnswerFields, gaugesAnswerFields⟩
end

section
/-! The configuration requests, the link record and the gauge records (chapter 13): O56, its first part. -/

namespace Sys2Proof.Machine

/-! ### Selectors (R198) -/

theorem channelOf_eq_none {n : Nat} (h : n = 0 ∨ 4 < n) : channelOf n = none := by
  unfold channelOf
  split <;> simp_all

theorem exists_channelOf {n : Nat} (h₁ : 1 ≤ n) (h₂ : n ≤ 4) : ∃ c, channelOf n = some c := by
  interval_cases n <;> exact ⟨_, rfl⟩

theorem ofNumber_eq_none {n : Nat} (h : n = 0 ∨ 6 < n) : UnitNo.ofNumber n = none := by
  unfold UnitNo.ofNumber
  split <;> simp_all

theorem exists_ofNumber {n : Nat} (h₁ : 1 ≤ n) (h₂ : n ≤ 6) : ∃ u, UnitNo.ofNumber n = some u := by
  interval_cases n <;> exact ⟨_, rfl⟩

theorem recordNamed_gauge {n : Nat} {c : ChannelName} (h : channelOf n = some c) :
    recordNamed 2 n = some (.gauge c) :=
  congrArg (Option.map RecordName.gauge) h

theorem recordNamed_unit {n : Nat} {u : UnitNo} (h : UnitNo.ofNumber n = some u) :
    recordNamed 3 n = some (.unit u) :=
  congrArg (Option.map RecordName.unit) h

theorem recordNamed_eq_none {t n : Nat} (h : (t ≤ 1 ∧ n ≠ 0) ∨ (t = 2 ∧ (n = 0 ∨ 4 < n))
    ∨ (t = 3 ∧ (n = 0 ∨ 6 < n)) ∨ 3 < t) : recordNamed t n = none := by
  rcases h with ⟨ht, hn⟩ | ⟨rfl, hn⟩ | ⟨rfl, hn⟩ | ht
  · unfold recordNamed
    split <;> simp_all
  · exact congrArg (Option.map RecordName.gauge) (channelOf_eq_none hn)
  · exact congrArg (Option.map RecordName.unit) (ofNumber_eq_none hn)
  · unfold recordNamed
    split <;> simp_all

theorem toNat_ne_zero {n : Byte} (h : n ≠ 0#8) : n.toNat ≠ 0 := fun e => h (BitVec.eq_of_toNat_eq e)

/-! ### The tests of a write, in their order (R198) -/

section
variable {type inst : Byte} {record : List Byte} {p : Part}

theorem serveWriteConfig_of_unnamed (n : recordNamed type.toNat inst.toNat = none) :
    serveWriteConfig type inst record p = (p, .refusal .range) := by
  simp only [serveWriteConfig, writeRecord, n]

variable {r : RecordName} (n : recordNamed type.toNat inst.toNat = some r)
include n

theorem serveWriteConfig_of_length (l : record.length ≠ r.length) :
    serveWriteConfig type inst record p = (p, .refusal .length) := by
  simp only [serveWriteConfig, writeRecord, n, if_pos l]

theorem serveWriteConfig_of_refused (l : record.length = r.length) {reason : Reason}
    (t : takeRecord r record p = (p, some reason)) :
    serveWriteConfig type inst record p = (p, .refusal reason) := by
  simp only [serveWriteConfig, writeRecord, n, l, ne_eq, not_true_eq_false, if_false, t]

theorem serveWriteConfig_of_taken (l : record.length = r.length) {q : Part} (t : takeRecord r record p = (q, none)) :
    serveWriteConfig type inst record p = (q, .answer (type :: inst :: q.config.encodeRecordOf r)) := by
  simp only [serveWriteConfig, writeRecord, n, l, ne_eq, not_true_eq_false, if_false, t]
  rfl

theorem serveAskConfig_of_named :
    serveAskConfig type inst p = (p, .answer (type :: inst :: p.config.encodeRecordOf r)) := by
  simp only [serveAskConfig, n]
  rfl

end

theorem serveAskConfig_of_unnamed {type inst : Byte} {p : Part} (n : recordNamed type.toNat inst.toNat = none) :
    serveAskConfig type inst p = (p, .refusal .range) := by
  simp only [serveAskConfig, n]

/-! ### The rows of a write -/

section
variable {tag inst : Byte} {record : List Byte} {s : State} {q : Part} {r : Response}
  (receives : s.part.link.receives = true)
include receives

theorem exec_writeConfigLink (h : serveWriteConfig 0#8 inst record s.part.arrived = (q, r)) :
    exec (.writeConfigLink tag inst record) s
      = .next (s.withPart (q.reply RequestKind.writeConfig.byte tag r)) :=
  next_withPart s (request_of_receives receives h)

theorem exec_writeConfigStation (h : serveWriteConfig 1#8 inst record s.part.arrived = (q, r)) :
    exec (.writeConfigStation tag inst record) s
      = .next (s.withPart (q.reply RequestKind.writeConfig.byte tag r).takeUnseenRound) :=
  next_withPart s (congrArg Part.takeUnseenRound (request_of_receives receives h))

theorem exec_writeConfigGauge (h : serveWriteConfig 2#8 inst record s.part.arrived = (q, r)) :
    exec (.writeConfigGauge tag inst record) s
      = .next (s.withPart (q.reply RequestKind.writeConfig.byte tag r).takeUnseenRound) :=
  next_withPart s (congrArg Part.takeUnseenRound (request_of_receives receives h))

theorem exec_writeConfigUnit (h : serveWriteConfig 3#8 inst record s.part.arrived = (q, r)) :
    exec (.writeConfigUnit tag inst record) s
      = .next (s.withPart (q.reply RequestKind.writeConfig.byte tag r)) :=
  next_withPart s (request_of_receives receives h)

theorem exec_askConfig {type : Byte} (h : serveAskConfig type inst s.part.arrived = (q, r)) :
    exec (.askConfig tag type inst) s = .next (s.withPart (q.reply RequestKind.askConfig.byte tag r)) :=
  next_withPart s (request_of_receives receives h)

end

theorem configSelectorsAndLengths : Rules.ConfigSelectorsAndLengths := by
  intro tag inst record s receives p refused refusedLate read
  refine ⟨fun h => ?_, fun h => ?_, fun h => ?_, fun h l => ?_, fun h l => ?_, fun h₁ h₂ l => ?_,
    fun h₁ h₂ l => ?_, fun h => ?_, fun n h => ?_, fun u h => ?_, fun type h => ?_⟩
  · have other := toNat_ne_zero h
    exact ⟨exec_writeConfigLink receives
        (serveWriteConfig_of_unnamed (recordNamed_eq_none (.inl ⟨by decide, other⟩))),
      exec_writeConfigStation receives
        (serveWriteConfig_of_unnamed (recordNamed_eq_none (.inl ⟨by decide, other⟩)))⟩
  · exact exec_writeConfigGauge receives
      (serveWriteConfig_of_unnamed (recordNamed_eq_none (.inr (.inl ⟨rfl, h⟩))))
  · exact exec_writeConfigUnit receives
      (serveWriteConfig_of_unnamed (recordNamed_eq_none (.inr (.inr (.inl ⟨rfl, h⟩)))))
  · subst h
    exact exec_writeConfigLink receives (serveWriteConfig_of_length (r := .link) rfl l)
  · subst h
    exact exec_writeConfigStation receives (serveWriteConfig_of_length (r := .station) rfl l)
  · obtain ⟨c, named⟩ := exists_channelOf h₁ h₂
    exact exec_writeConfigGauge receives (serveWriteConfig_of_length (recordNamed_gauge named) l)
  · obtain ⟨u, named⟩ := exists_ofNumber h₁ h₂
    exact exec_writeConfigUnit receives (serveWriteConfig_of_length (recordNamed_unit named) l)
  · subst h
    exact ⟨exec_askConfig receives (serveAskConfig_of_named (r := .link) rfl),
      exec_askConfig receives (serveAskConfig_of_named (r := .station) rfl)⟩
  · exact exec_askConfig receives (serveAskConfig_of_named (type := 2#8) (recordNamed_gauge h))
  · exact exec_askConfig receives (serveAskConfig_of_named (type := 3#8) (recordNamed_unit h))
  · refine exec_askConfig receives (serveAskConfig_of_unnamed (recordNamed_eq_none ?_))
    exact h.imp_left (And.imp_right toNat_ne_zero)

/-! ### Numbers in bytes (R185) -/

theorem fieldAt_one (b : Byte) (before after : List Byte) :
    fieldAt (before ++ b :: after) before.length 1 = b.toNat := by
  simp [fieldAt, ofBytes]

theorem ofBytes_beBytes_two {n : Nat} (h : n < 65536) : ofBytes (beBytes 2 n) = n := by
  simp only [ofBytes, beBytes, List.foldl_cons, List.foldl_nil, BitVec.toNat_ofNat]
  omega

theorem signed16_toNat (z : Word16) : signed16 z.toNat = z.toInt := by
  unfold signed16 BitVec.toInt
  split <;> split <;> omega

/-! ### The link record (R173) -/

theorem named_ofCode_baud {n : Nat} (h : 4 < n) : (BaudRate.ofCode n).named = false := by
  unfold BaudRate.ofCode
  split <;> simp_all [BaudRate.named]

theorem named_ofCode_gap {n : Nat} (h : 3 < n) : (GapLimit.ofCode n).named = false := by
  unfold GapLimit.ofCode
  split <;> simp_all [GapLimit.named]

theorem decodeLink_pair (baud gap : Byte) :
    decodeLink [baud, gap] = ⟨BaudRate.ofCode baud.toNat, GapLimit.ofCode gap.toNat⟩ := by
  simp [decodeLink, fieldAt, ofBytes]

theorem takeRecord_link_refused {baud gap : Byte} (h : 4 < baud.toNat ∨ 3 < gap.toNat) (p : Part) :
    takeRecord .link [baud, gap] p = (p, some .range) := by
  have unnamed : (decodeLink [baud, gap]).named = false := by
    rw [decodeLink_pair, LinkSettings.named]
    rcases h with h | h
    · rw [named_ofCode_baud h, Bool.false_and]
    · rw [named_ofCode_gap h, Bool.and_false]
  exact if_neg (ne_true_of_eq_false unnamed)

section
variable {l : LinkSettings} (hb : l.baud.named = true) (hg : l.gapLimit.named = true)
include hb hg

theorem takeRecord_link_taken {baud gap : Byte} (cb : l.baud.code = baud.toNat) (cg : l.gapLimit.code = gap.toNat)
    (p : Part) : takeRecord .link [baud, gap] p = (p.writeLink l, none) := by
  have decoded : decodeLink [baud, gap] = l := by
    rw [decodeLink_pair, ← cb, ← cg, BaudRate.ofCode_code hb, GapLimit.ofCode_code hg]
  have named : (decodeLink [baud, gap]).named = true := by simp [decoded, LinkSettings.named, hb, hg]
  exact (if_pos named).trans (by rw [decoded])

end

theorem codeByte_toNat {n : Nat} {b : Byte} (h : n = b.toNat) : codeByte n = b := by
  subst h
  exact BitVec.eq_of_toNat_eq (by simp [codeByte])

theorem linkRecordWritten : Rules.LinkRecordWritten := by
  intro tag baud gap s receives p
  refine ⟨fun h => ?_, fun l hb hg cb cg => ?_⟩
  · exact exec_writeConfigLink receives
      (serveWriteConfig_of_refused (r := .link) rfl rfl (takeRecord_link_refused h _))
  · intro q
    have served := serveWriteConfig_of_taken (type := 0#8) (inst := 0#8) (r := .link) rfl rfl
      (takeRecord_link_taken hb hg cb cg p)
    have bytes : encodeLink l = [baud, gap] := by
      rw [encodeLink, codeByte_toNat cb, codeByte_toNat cg]
    have same (h : l = p.link.settings) : p.writeLink l = q := if_pos (by simp [h])
    have moved (h : l ≠ p.link.settings) :
        p.writeLink l = { q with link := { q.link with after := some (.newSettings l) } } :=
      if_neg (by simpa using h)
    refine ⟨fun h => ?_, fun h => ?_⟩
    · rw [same h] at served
      exact (exec_writeConfigLink receives served).trans (by rw [← bytes]; rfl)
    · rw [moved h] at served
      exact (exec_writeConfigLink receives served).trans (by rw [← bytes]; rfl)

/-! ### Gauge records (R3) -/

section
variable (fitted : Bool) (z span : Word16)

/-- The five bytes of a gauge record, and the record they give. -/
theorem decodeGauge_bytes :
    decodeGauge (markByte fitted :: (beBytes 2 z.toNat ++ beBytes 2 span.toNat))
      = ⟨fitted, z.toInt, span.toNat⟩ := by
  have mark : fieldAt (markByte fitted :: (beBytes 2 z.toNat ++ beBytes 2 span.toNat)) 0 1
      = (markByte fitted).toNat := fieldAt_one _ [] _
  have zero : fieldAt (markByte fitted :: (beBytes 2 z.toNat ++ beBytes 2 span.toNat)) 1 2 = z.toNat :=
    ofBytes_beBytes_two z.isLt
  have spanned : fieldAt (markByte fitted :: (beBytes 2 z.toNat ++ beBytes 2 span.toNat)) 3 2 = span.toNat :=
    ofBytes_beBytes_two span.isLt
  rw [decodeGauge, signedAt, mark, zero, spanned, signed16_toNat]
  cases fitted <;> rfl

end

theorem rackForcedClear_of_clear {p : Part} (h : p.gauge.rack = .clear) : p.rackForcedClear = p :=
  if_pos (by simp [h])

theorem rackForcedClear_of_other {p : Part} (h : p.gauge.rack ≠ .clear) :
    p.rackForcedClear = ({ p with gauge.rack := .clear }.record .rackClear none none).grantCheck :=
  if_neg (by simpa using h)

/-- The working copy's record and the channel of a written gauge, before the rack (R3). -/
def Part.gaugeWritten (p : Part) (c : ChannelName) (r : GaugeRecord) : Part :=
  { p with
    config.gauges := p.config.gauges.set c r
    gauge.channels := p.gauge.channels.set c (freshChannel r.fitted) }

theorem writeGauge_eq (p : Part) (c : ChannelName) (r : GaugeRecord) :
    p.writeGauge c r
      = if c = .gs ∧ r.fitted = false then (p.gaugeWritten c r).rackForcedClear else p.gaugeWritten c r := by
  unfold Part.writeGauge
  simp only [Bool.and_eq_true, beq_iff_eq, Bool.not_eq_true']
  rfl

@[simp] theorem Four.get_set_self {α : Type} (x : Four α) (c : ChannelName) (a : α) : (x.set c a).get c = a := by
  cases c <;> rfl

/-- A grant check and a record leave the working copy alone, so the answer shows the record just written. -/
theorem config_writeGauge (p : Part) (c : ChannelName) (r : GaugeRecord) :
    (p.writeGauge c r).config.encodeRecordOf (.gauge c) = encodeGauge r := by
  have written : (p.writeGauge c r).config = (p.gaugeWritten c r).config := by
    rw [writeGauge_eq]
    split
    · unfold Part.rackForcedClear
      split
      · rfl
      · exact (BlocksOnly.unitMoves.grantCheck _).config
    · rfl
  rw [written]
  exact congrArg encodeGauge (Four.get_set_self _ c r)

theorem gaugeRecordWritten : Rules.GaugeRecordWritten := by
  intro tag inst n fitted z span s receives named p record r q cleared taken
  have decoded : clampGauge (decodeGauge record) = r := by
    rw [decodeGauge_bytes]
    rfl
  have takes (h : ¬((n = .ga ∨ n = .go) ∧ fitted = false)) :
      takeRecord (.gauge n) record p = (p.writeGauge n r, none) := by
    refine (if_neg ?_).trans (by rw [decoded])
    rw [decoded]
    intro c
    exact h (by cases n <;> simp_all [mustBeFitted, r])
  have row (h : ¬((n = .ga ∨ n = .go) ∧ fitted = false)) {t : Part} (e : p.writeGauge n r = t) : taken t := by
    have served := serveWriteConfig_of_taken (type := 2#8) (recordNamed_gauge named) rfl (takes h)
    rw [config_writeGauge, e] at served
    exact exec_writeConfigGauge receives served
  refine ⟨fun must off => ?_, fun h may => row may ?_, fun gs off rack => row ?_ ?_⟩
  · have refused : takeRecord (.gauge n) record p = (p, some .range) := by
      refine if_pos ?_
      rw [decoded]
      rcases must with rfl | rfl <;> simp [mustBeFitted, r, off]
    exact exec_writeConfigGauge receives
      (serveWriteConfig_of_refused (type := 2#8) (recordNamed_gauge named) rfl refused)
  · rw [writeGauge_eq]
    split
    · obtain ⟨gs, off⟩ := ‹n = .gs ∧ r.fitted = false›
      have rack : p.gauge.rack = .clear := by
        rcases h with on | gb | ⟨-, rack⟩
        · exact absurd on (ne_true_of_eq_false off)
        · simp [gb] at gs
        · exact rack
      exact rackForcedClear_of_clear (p := p.gaugeWritten n r) rack
    · rfl
  · simp [gs]
  · rw [writeGauge_eq, if_pos ⟨gs, off⟩]
    exact rackForcedClear_of_other rack

end Sys2Proof.Machine
end

section
/-! The station record and the unit records (chapter 13): O56, its second part. -/

namespace Sys2Proof.Machine

/-! ### Unit records (R17, R18, R29) -/

theorem headsRise_iff (c : List CurvePoint) : headsRise c = true ↔ c.Pairwise fun a b => a.head < b.head := by
  rw [← List.isChain_iff_pairwise]
  induction c with
  | nil => simp [headsRise]
  | cons a c ih =>
    cases c with
    | nil => simp [headsRise]
    | cons b c => simp [headsRise, ih]

theorem curveValid_iff (c : List CurvePoint) :
    curveValid c = true ↔ 2 ≤ c.length ∧ c.length ≤ 6 ∧ c.Pairwise (fun a b => a.head < b.head)
      ∧ ∀ a ∈ c, a.head ≤ 30000 ∧ a.flow ≤ 20000 ∧ a.power ≤ 2000 := by
  simp only [curveValid, Bool.and_eq_true, decide_eq_true_eq, headsRise_iff, List.all_eq_true, pointValid, and_assoc]
  tauto

theorem named_outlet_iff (o : Outlet) : o.named = true ↔ o = .siphon ∨ o = .flap := by
  cases o <;> simp [Outlet.named]

theorem clampNat_zero (hi n : Nat) : clampNat 0 hi n = min hi n := by simp [clampNat]

/-- The fallback head with the loss of the unit's pipe, clamped (R19, R21). -/
theorem deriveFallback_eq (fallback : Nat) (r : UnitRecord) :
    deriveFallback fallback r = deriveAt r (min 30000 (fallback + r.loss)) .fallback := by
  have head : effectiveHead ((fallback : Int) + r.loss) = min 30000 (fallback + r.loss) := by
    unfold effectiveHead clampInt
    omega
  rw [deriveFallback, head]

section
variable {p : Part} {u : UnitNo} {record : List Byte}

theorem takeRecord_unit_notOffline (h : (p.unit u).state ≠ .offline) :
    takeRecord (.unit u) record p = (p, some .state) :=
  if_pos (by simpa using h)

variable (h : (p.unit u).state = .offline)
include h

theorem takeRecord_unit_refused
    (v : ¬((decodeUnit record).outlet.named = true ∧ curveValid (decodeUnit record).curve = true)) :
    takeRecord (.unit u) record p = (p, some .range) :=
  (if_neg (by simp [h])).trans (if_neg (by simpa using v))

theorem takeRecord_unit_taken (o : (decodeUnit record).outlet.named = true)
    (v : curveValid (decodeUnit record).curve = true) :
    takeRecord (.unit u) record p = (p.writeUnit u (clampUnit (decodeUnit record)), none) :=
  (if_neg (by simp [h])).trans (if_pos (by simp [o, v]))

end

/-- The unit record in the working copy, and the derived values with it (R18, R29). -/
def Part.unitWritten (p : Part) (u : UnitNo) (c : UnitRecord) (d : Derived) : Part :=
  { p with
    config.units := p.config.units.set u c
    curves := p.curves.set u d }

section
variable {p : Part} (u : UnitNo) (c : UnitRecord)

theorem writeUnit_of_snapshot {snap : Snapshot} (h : p.gauge.snapshot = some snap) :
    p.writeUnit u c = p.unitWritten u c (deriveFrom p.fallbackInUse c snap (p.curves.get u)) := by
  simp only [Part.writeUnit, Part.reformCurve, Part.unitRecord, Six.get_set_self, h]
  rfl

theorem writeUnit_of_noSnapshot (h : p.gauge.snapshot = none) :
    p.writeUnit u c = p.unitWritten u c (deriveFallback p.fallbackInUse c) := by
  simp only [Part.writeUnit, Part.reformCurve, Part.unitRecord, Six.get_set_self, h]
  rfl

end

theorem unitRecordWritten : Rules.UnitRecordWritten := by
  intro tag inst u record s receives named length p upTo refused valid
  have selector : recordNamed (3#8 : Byte).toNat inst.toNat = some (.unit u) := recordNamed_unit named
  refine ⟨fun h => ?_, fun h r decoded => ?_⟩
  · exact exec_writeConfigUnit receives
      (serveWriteConfig_of_refused selector length (takeRecord_unit_notOffline h))
  · intro outlet
    refine ⟨fun v => ?_, fun o v => ?_⟩
    · have bad : ¬((decodeUnit record).outlet.named = true ∧ curveValid (decodeUnit record).curve = true) := by
        rw [decoded, named_outlet_iff, curveValid_iff]
        exact v
      exact exec_writeConfigUnit receives
        (serveWriteConfig_of_refused selector length (takeRecord_unit_refused h bad))
    · intro c taken
      have clamped : clampUnit (decodeUnit record) = c := by
        simp only [clampUnit, decoded, clampNat_zero]
        rfl
      have takes : takeRecord (.unit u) record p = (p.writeUnit u c, none) := by
        rw [← clamped]
        exact takeRecord_unit_taken h (by rw [decoded, named_outlet_iff]; exact o)
          (by rw [decoded, curveValid_iff]; exact v)
      have row {d : Derived} (e : p.writeUnit u c = p.unitWritten u c d) : taken d := by
        have served := serveWriteConfig_of_taken selector length takes
        have shown : (p.unitWritten u c d).config.encodeRecordOf (.unit u) = encodeUnit c :=
          congrArg encodeUnit (Six.get_set_self _ u c)
        rw [e, shown] at served
        exact exec_writeConfigUnit receives served
      exact ⟨fun snap h => row (writeUnit_of_snapshot u c h),
        fun h => row ((writeUnit_of_noSnapshot u c h).trans (by rw [deriveFallback_eq]))⟩

/-! ### The station record (R4, R94) -/

/-- A fixed order of six bytes that holds each unit number is a permutation of the six numbers. -/
theorem orderValid_iff (order : List Byte) :
    orderValid order = true ↔ order.Perm [1#8, 2#8, 3#8, 4#8, 5#8, 6#8] := by
  have numbers : UnitNo.all.map (fun u => codeByte u.number) = [1#8, 2#8, 3#8, 4#8, 5#8, 6#8] := by decide
  have holds : (UnitNo.all.all fun u => order.contains (codeByte u.number)) = true
      ↔ [1#8, 2#8, 3#8, 4#8, 5#8, 6#8] ⊆ order := by
    rw [← numbers]
    simp [List.subset_def]
  simp only [orderValid, Bool.and_eq_true, decide_eq_true_eq, holds]
  refine ⟨fun ⟨six, all⟩ => ?_, fun perm => ⟨perm.length_eq, perm.symm.subset⟩⟩
  have sub : List.Subperm [1#8, 2#8, 3#8, 4#8, 5#8, 6#8] order := List.subperm_of_subset (by decide) all
  exact (sub.perm_of_length_le six.le).symm

theorem named_rankingMode_iff (m : RankingMode) : m.named = true ↔ m = .rotate ∨ m = .fixed := by
  cases m <;> simp [RankingMode.named]

/-- The structural rules of R4 and R94. -/
theorem stationValid_iff (r : StationRecord) :
    stationValid r = true ↔ -20000 ≤ r.stopLevel ∧ r.stopLevel ≤ 20000 ∧ -20000 ≤ r.highLevel
      ∧ r.highLevel ≤ 20000 ∧ 200 ≤ r.highLevel - r.stopLevel ∧ (r.rankingMode = .rotate ∨ r.rankingMode = .fixed)
      ∧ r.fixedOrder.Perm [1#8, 2#8, 3#8, 4#8, 5#8, 6#8]
      ∧ r.cleanThreshold < r.restrictThreshold ∧ r.restrictThreshold < r.tripThreshold := by
  simp only [stationValid, levelInRange, Bool.and_eq_true, decide_eq_true_eq, named_rankingMode_iff, orderValid_iff,
    and_assoc]

section
variable {p : Part} {record : List Byte}

theorem takeRecord_station_refused (h : ¬stationValid (clampStation (decodeStation record)) = true) :
    takeRecord .station record p = (p, some .range) :=
  if_neg h

theorem takeRecord_station_taken (h : stationValid (clampStation (decodeStation record)) = true) :
    takeRecord .station record p = (p.writeStation (clampStation (decodeStation record)), none) :=
  if_pos h

end

/-! The side effects of a written station record (R69, R94, R131, R151), each as one change of its block. -/

section
variable (p : Part) (old : StationRecord)

theorem estimatorFollows_eq :
    p.estimatorFollows old
      = { p with
          estimator :=
            if p.config.station.interval = old.interval ∧ p.config.station.window = old.window then p.estimator
            else p.freshEstimator } := by
  unfold Part.estimatorFollows
  split <;> rfl

theorem evaluationFollows_eq :
    p.evaluationFollows old
      = { p with
          dispatcher :=
            if p.config.station.evalInterval = old.evalInterval then p.dispatcher
            else { p.dispatcher with timer := p.startTimer p.config.station.evalInterval } } := by
  unfold Part.evaluationFollows
  split <;> rfl

theorem supervisionFollows_eq :
    p.supervisionFollows old
      = { p with
          supervision :=
            if p.config.station.supervisionTimeout = old.supervisionTimeout then p.supervision
            else { p.supervision with timer := p.startTimerUnlessZero p.config.station.supervisionTimeout } } := by
  unfold Part.supervisionFollows
  split <;> rfl

theorem rakeFollows_eq :
    p.rakeFollows old
      = { p with
          cleaner :=
            if p.config.station.rakeInterval = old.rakeInterval ∨ p.cleaner.state ≠ .idle then p.cleaner
            else { p.cleaner with interval := p.startTimerUnlessZero p.config.station.rakeInterval } } := by
  unfold Part.rakeFollows
  simp only [Bool.or_eq_true, decide_eq_true_eq, bne_iff_ne]
  split <;> rfl

/-- A written station record: the working copy, the configured mark and the side effects, then the budget. -/
theorem writeStation_eq (c : StationRecord) :
    p.writeStation c
      = Part.reformBudget
        { p with
          config := { p.config with station := c }
          store := { p.store with configured := true }
          estimator :=
            if c.interval = p.config.station.interval ∧ c.window = p.config.station.window then p.estimator
            else ⟨0, p.sluiceClosed, p.startTimer c.interval, [], .warming, 0⟩
          dispatcher :=
            if c.evalInterval = p.config.station.evalInterval then p.dispatcher
            else { p.dispatcher with timer := p.startTimer c.evalInterval }
          supervision :=
            if c.supervisionTimeout = p.config.station.supervisionTimeout then p.supervision
            else { p.supervision with timer := p.startTimerUnlessZero c.supervisionTimeout }
          cleaner :=
            if c.rakeInterval = p.config.station.rakeInterval ∨ p.cleaner.state ≠ .idle then p.cleaner
            else { p.cleaner with interval := p.startTimerUnlessZero c.rakeInterval } } := by
  unfold Part.writeStation
  rw [estimatorFollows_eq, evaluationFollows_eq, supervisionFollows_eq, rakeFollows_eq]
  rfl

end

theorem station_writeStation (p : Part) (c : StationRecord) : (p.writeStation c).config.station = c := by
  rw [writeStation_eq, config_reformBudget]

/-- A station record that passes is answered as it then stands in the working copy. -/
theorem serveWriteConfig_station {record : List Byte} {p : Part} {c : StationRecord} (length : record.length = 61)
    (clamped : clampStation (decodeStation record) = c) (v : stationValid c = true) :
    serveWriteConfig 1#8 0#8 record p = (p.writeStation c, .answer (1#8 :: 0#8 :: encodeStation c)) := by
  subst clamped
  rw [serveWriteConfig_of_taken (r := .station) rfl length (takeRecord_station_taken v), WorkingCopy.encodeRecordOf,
    station_writeStation]

theorem stationRecordWritten : Rules.StationRecordWritten := by
  intro tag r record s receives length decoded p old upTo c valid now unlessZero q
  have clamped : clampStation (decodeStation record) = c := by
    simp only [clampStation, decoded, clampNat_zero]
    rfl
  have structural : stationValid c = true ↔ valid := stationValid_iff c
  refine ⟨fun v => ?_, fun v => ?_⟩
  · have bad : ¬stationValid (clampStation (decodeStation record)) = true :=
      fun k => v (structural.mp (clamped ▸ k))
    exact exec_writeConfigStation receives
      (serveWriteConfig_of_refused (r := .station) rfl length (takeRecord_station_refused bad))
  · have served := serveWriteConfig_station (p := p) length clamped (structural.mpr v)
    have written : p.writeStation c = q.reformBudget := writeStation_eq p c
    rw [written] at served
    exact exec_writeConfigStation receives served

end Sys2Proof.Machine

open Sys2Proof Sys2Proof.Machine in
/-- Settles O56, from the selectors and the four records. -/
theorem configurationWrites : Obligations.ConfigurationWrites :=
  ⟨configSelectorsAndLengths, linkRecordWritten, stationRecordWritten, gaugeRecordWritten, unitRecordWritten⟩
end

section
/-! The readings of a pump curve, and the heads formed at a snapshot (chapter 2): O17, O18. -/

namespace Sys2Proof.Machine

/-! ### A value between two points (R22) -/

/-- A quotient rounded toward zero stays between 0 and `v`, where `x` lies between 0 and `d`. -/
theorem tdiv_mul_between {v x d : Int} (hd : 0 < d) (h₀ : 0 ≤ x) (h₁ : x ≤ d) :
    min 0 v ≤ Int.tdiv (v * x) d ∧ Int.tdiv (v * x) d ≤ max 0 v := by
  have rise {w : Int} (hw : 0 ≤ w) : 0 ≤ Int.tdiv (w * x) d ∧ Int.tdiv (w * x) d ≤ w := by
    refine ⟨Int.tdiv_nonneg (Int.mul_nonneg hw h₀) hd.le, ?_⟩
    calc Int.tdiv (w * x) d ≤ Int.tdiv (w * d) d := Int.tdiv_le_tdiv hd (Int.mul_le_mul_of_nonneg_left h₁ hw)
      _ = w := Int.mul_tdiv_cancel w hd.ne'
  rcases le_total 0 v with hv | hv
  · have := rise hv
    omega
  · have fall := rise (w := -v) (by omega)
    rw [Int.neg_mul, Int.neg_tdiv] at fall
    omega

section
variable {h0 h1 h : Nat} (v0 v1 : Nat) (rise : h0 < h1) (above : h0 ≤ h) (below : h ≤ h1)

include rise above below

/-- Between two heads the interpolated value lies between the two values, so no part of it is cut off below 0. -/
theorem interpolate_spec :
    ((interpolate v0 v1 h0 h1 h : Nat) : Int)
        = v0 + Int.tdiv (((v1 : Int) - v0) * ((h : Int) - h0)) ((h1 : Int) - h0)
      ∧ min v0 v1 ≤ interpolate v0 v1 h0 h1 h ∧ interpolate v0 v1 h0 h1 h ≤ max v0 v1 := by
  have between := tdiv_mul_between (v := (v1 : Int) - v0) (x := (h : Int) - h0) (d := (h1 : Int) - h0)
    (by omega) (by omega) (by omega)
  unfold interpolate quotToZero
  omega

end

@[simp] theorem interpolate_self (v0 v1 h0 h1 : Nat) : interpolate v0 v1 h0 h1 h0 = v0 := by
  simp [interpolate, quotToZero]

/-! ### The segment of a curve that a head lies on -/

/-- The points below the head are passed by: the reading is the one from the last point that the head reaches. -/
theorem readFrom_append (c : CurvePoint) (passed : List CurvePoint) (a : CurvePoint) (rest : List CurvePoint)
    {h : Nat} (reached : ∀ b ∈ passed ++ [a], b.head ≤ h) :
    readFrom c (passed ++ a :: rest) h = readFrom a rest h := by
  induction passed generalizing c with
  | nil =>
    have ha : a.head ≤ h := reached a (by simp)
    simp [readFrom, Nat.not_lt.mpr ha]
  | cons b passed ih =>
    have hb : b.head ≤ h := reached b (by simp)
    rw [List.cons_append, readFrom, if_neg (Nat.not_lt.mpr hb)]
    exact ih b fun d hd => reached d (List.mem_cons_of_mem b hd)

/-- In a curve of rising heads the points before one that the head reaches are passed by. -/
theorem readCurve_append {before : List CurvePoint} {a : CurvePoint} {rest : List CurvePoint} {h : Nat}
    (rises : headsRise (before ++ a :: rest) = true) (reached : a.head ≤ h) :
    readCurve (before ++ a :: rest) h = readFrom a rest h := by
  cases before with
  | nil => simp [readCurve, Nat.not_lt.mpr reached]
  | cons c passed =>
    have lower : ∀ b ∈ c :: passed, b.head < a.head := fun b hb =>
      (List.pairwise_append.mp ((headsRise_iff _).mp rises)).2.2 b hb a (by simp)
    have first : c.head ≤ h := (lower c (by simp)).le.trans reached
    rw [List.cons_append, readCurve, if_neg (Nat.not_lt.mpr first)]
    refine readFrom_append c passed a rest fun b hb => ?_
    rcases List.mem_append.mp hb with hb | hb
    · exact (lower b (List.mem_cons_of_mem c hb)).le.trans reached
    · exact List.mem_singleton.mp hb ▸ reached

/-- The reading at a point itself is the point's values. -/
theorem readFrom_self {a : CurvePoint} {rest : List CurvePoint} (rises : headsRise (a :: rest) = true) :
    readFrom a rest a.head = ⟨a.flow, a.power, false⟩ := by
  cases rest with
  | nil => simp [readFrom]
  | cons b rest =>
    have next : a.head < b.head := List.rel_of_pairwise_cons ((headsRise_iff _).mp rises) (by simp)
    simp [readFrom, next]

theorem headsRise_append_right {before rest : List CurvePoint} (rises : headsRise (before ++ rest) = true) :
    headsRise rest = true :=
  (headsRise_iff rest).mpr (List.pairwise_append.mp ((headsRise_iff _).mp rises)).2.1

theorem curveReadings : Rules.CurveReadings := by
  intro curve h rises
  refine ⟨?_, ?_, ?_, ?_⟩
  · rintro a rest rfl low
    exact if_pos low
  · rintro a member rfl
    obtain ⟨before, rest, rfl⟩ := List.append_of_mem member
    exact (readCurve_append rises le_rfl).trans (readFrom_self (headsRise_append_right rises))
  · rintro before after a b rfl above below
    have read : readCurve (before ++ a :: b :: after) h
        = ⟨interpolate a.flow b.flow a.head b.head h, interpolate a.power b.power a.head b.head h, false⟩ :=
      (readCurve_append rises above.le).trans (if_pos below)
    rw [read]
    exact ⟨(interpolate_spec _ _ (above.trans below) above.le below.le).1,
      (interpolate_spec _ _ (above.trans below) above.le below.le).1, rfl⟩
  · intro a last above
    obtain ⟨before, rfl⟩ := List.getLast?_eq_some_iff.mp last
    exact (readCurve_append rises above.le).trans (if_neg above.ne')

/-! ### The bounds of the estimates (R25) -/

/-- A reading lies within bounds of flow and power, the flow of a head-limited unit being 0. -/
structure Reading.Within (r : Reading) (lowFlow highFlow lowPower highPower : Nat) : Prop where
  limited : r.limited = true → r.flow = 0
  flow : r.limited = false → lowFlow ≤ r.flow ∧ r.flow ≤ highFlow
  power : lowPower ≤ r.power ∧ r.power ≤ highPower

section
variable {lowFlow highFlow lowPower highPower : Nat}

theorem readFrom_within (rest : List CurvePoint) : ∀ {c : CurvePoint} {h : Nat}, headsRise (c :: rest) = true →
    c.head ≤ h →
    (∀ a ∈ c :: rest, lowFlow ≤ a.flow ∧ a.flow ≤ highFlow ∧ lowPower ≤ a.power ∧ a.power ≤ highPower) →
    (readFrom c rest h).Within lowFlow highFlow lowPower highPower := by
  induction rest with
  | nil =>
    intro c h _ _ bounds
    obtain ⟨lf, hf, power⟩ := bounds c (by simp)
    unfold readFrom
    split
    · exact ⟨nofun, fun _ => ⟨lf, hf⟩, power⟩
    · exact ⟨fun _ => rfl, nofun, power⟩
  | cons d rest ih =>
    intro c h rises above bounds
    unfold readFrom
    split
    · rename_i below
      have rise : c.head < d.head := above.trans_lt below
      obtain ⟨lf, hf, lp, hp⟩ := bounds c (by simp)
      obtain ⟨lf', hf', lp', hp'⟩ := bounds d (by simp)
      have flow := (interpolate_spec c.flow d.flow rise above below.le).2
      have power := (interpolate_spec c.power d.power rise above below.le).2
      exact ⟨nofun, fun _ => ⟨(le_min lf lf').trans flow.1, flow.2.trans (max_le hf hf')⟩,
        (le_min lp lp').trans power.1, power.2.trans (max_le hp hp')⟩
    · rename_i reached
      exact ih (headsRise_append_right (before := [c]) rises) (Nat.not_lt.mp reached)
        fun a ha => bounds a (List.mem_cons_of_mem c ha)

end

theorem estimatesStayWithinCurve : Rules.EstimatesStayWithinCurve := by
  intro curve h lowFlow highFlow lowPower highPower nonempty rises bounds
  have within : (readCurve curve h).Within lowFlow highFlow lowPower highPower := by
    cases curve with
    | nil => exact absurd rfl nonempty
    | cons c rest =>
      rw [readCurve]
      split
      · obtain ⟨lf, hf, power⟩ := bounds c (by simp)
        exact ⟨nofun, fun _ => ⟨lf, hf⟩, power⟩
      · exact readFrom_within rest rises (Nat.not_lt.mp ‹_›) bounds
  exact ⟨within.limited, within.flow, within.power⟩

end Sys2Proof.Machine

open Sys2Proof Sys2Proof.Machine in
/-- Settles O17, from the segment that a head lies on and the bounds of a value between two points. -/
theorem curveEstimates : Obligations.CurveEstimates := ⟨curveReadings, estimatesStayWithinCurve⟩

namespace Sys2Proof.Machine

/-! ### The derived values at a snapshot (R19 to R21) -/

theorem effectiveHead_eq (raw : Int) : (effectiveHead raw : Int) = max 0 (min 30000 raw) := by
  unfold effectiveHead clampInt
  omega

section
variable (fallback : Nat) (r : UnitRecord) {snap : Snapshot} (old : Derived)

theorem deriveFrom_of_noInner (h : snap.inner = none) :
    deriveFrom fallback r snap old = deriveAt r old.head old.basis := by
  simp [deriveFrom, h]

theorem deriveFrom_of_levels {i o : Int} (hi : snap.inner = some i) (ho : snap.outer = some o)
    (quality : snap.outerQuality = .ok ∨ snap.outerQuality = .held) :
    deriveFrom fallback r snap old
      = deriveAt r (effectiveHead (o - i + r.loss))
          (if snap.outerQuality = .ok then .outerOk else .outerHeld) := by
  rcases quality with h | h <;> simp [deriveFrom, hi, ho, h]

theorem deriveFrom_of_noOuter {i : Int} (hi : snap.inner = some i)
    (quality : snap.outerQuality = .lost ∨ snap.outerQuality = .init) :
    deriveFrom fallback r snap old = deriveFallback fallback r := by
  rcases quality with h | h <;> simp [deriveFrom, hi, h]

/-- The readings are those of the unit's curve at the head formed, on every basis. -/
theorem deriveFrom_readings (snap : Snapshot) :
    ∃ head basis, deriveFrom fallback r snap old = deriveAt r head basis := by
  unfold deriveFrom deriveFallback
  split
  · exact ⟨_, _, rfl⟩
  · split <;> exact ⟨_, _, rfl⟩

end

theorem headsByTable : Rules.HeadsByTable := by
  intro fallback r snap old d read
  refine ⟨?_, fun noInner => ?_, fun i o hi ho quality => ?_, fun i hi quality => ?_⟩
  · obtain ⟨head, basis, formed⟩ := deriveFrom_readings fallback r old snap
    simp only [read, d, formed]
    exact ⟨rfl, rfl, rfl⟩
  · simp only [d, deriveFrom_of_noInner fallback r old noInner]
    exact ⟨rfl, rfl⟩
  · simp only [d, deriveFrom_of_levels fallback r old hi ho quality]
    exact ⟨effectiveHead_eq _, rfl⟩
  · simp only [d, deriveFrom_of_noOuter fallback r old hi quality, deriveFallback_eq]
    exact ⟨rfl, rfl⟩

theorem formsFallback_of_noOuter {snap : Snapshot} (hi : snap.inner.isSome = true)
    (quality : snap.outerQuality = .lost ∨ snap.outerQuality = .init) : formsFallback snap = true := by
  rcases quality with h | h <;> simp [formsFallback, hi, h]

theorem formsFallback_of_noInner {snap : Snapshot} (h : snap.inner = none) : formsFallback snap = false := by
  simp [formsFallback, h]

theorem formsFallback_of_outer {snap : Snapshot} (quality : snap.outerQuality = .ok ∨ snap.outerQuality = .held)
    (ho : snap.outer.isSome = true) : formsFallback snap = false := by
  obtain ⟨o, ho⟩ := Option.isSome_iff_exists.mp ho
  rcases quality with h | h <;> simp [formsFallback, h, ho]

/-! ### The curve table across a round (R13, R26) -/

/-- `q` has the curve table of `p`. -/
structure CurvesKept (p q : Part) : Prop where
  curves : q.curves = p.curves
  fallbackInUse : q.fallbackInUse = p.fallbackInUse

namespace CurvesKept

theorem refl (p : Part) : CurvesKept p p := ⟨rfl, rfl⟩

theorem trans {p q r : Part} (a : CurvesKept p q) (b : CurvesKept q r) : CurvesKept p r :=
  ⟨b.curves.trans a.curves, b.fallbackInUse.trans a.fallbackInUse⟩

/-- No operation of unit controllers and start arbiter touches the curve table. -/
theorem unitMoves : UnitMoves CurvesKept where
  refl := refl
  trans := trans
  arbiter _ _ _ _ := ⟨rfl, rfl⟩
  record _ _ _ _ := ⟨rfl, rfl⟩
  roundDue _ _ := ⟨rfl, rfl⟩
  enter _ _ _ := ⟨rfl, rfl⟩
  starting _ _ := ⟨rfl, rfl⟩
  priming _ _ _ := ⟨rfl, rfl⟩
  resting _ _ := ⟨rfl, rfl⟩
  stopping _ _ := ⟨rfl, rfl⟩
  quiet _ _ _ _ := ⟨rfl, rfl⟩

theorem rackCleared (p : Part) (old new : RackState) : CurvesKept p (p.rackCleared old new) := by
  unfold Part.rackCleared
  split
  · exact unitMoves.grantCheck p
  · exact refl p

theorem protect (p : Part) : CurvesKept p p.protect := (unitMoves.protectActs p).trans ⟨rfl, rfl⟩

theorem dispatchAtSnapshot (p : Part) (snap : Snapshot) : CurvesKept p (p.dispatchAtSnapshot snap) := by
  unfold Part.dispatchAtSnapshot
  split
  · unfold Part.stopLevelProtection
    split
    · exact protect p
    · exact (protect p).trans (unitMoves.record _ _ _ _)
  · split
    · exact trans (q := { p with dispatcher.hold := false }) ⟨rfl, rfl⟩ (unitMoves.grantCheck _)
    · exact refl p

theorem testArrival (p : Part) : CurvesKept p p.testArrival := by
  unfold Part.testArrival
  split
  · split <;> exact ⟨rfl, rfl⟩
  · split <;> exact ⟨rfl, rfl⟩
  all_goals exact refl p

theorem closeGate (p : Part) (cause : CloseCause) : CurvesKept p (p.closeGate cause) := by
  unfold Part.closeGate
  refine trans ?_ (testArrival _)
  split <;> exact ⟨rfl, rfl⟩

theorem sluiceAtSnapshot (p : Part) (snap : Snapshot) : CurvesKept p (p.sluiceAtSnapshot snap) := by
  unfold Part.sluiceAtSnapshot
  split
  · split
    · unfold Part.openGate
      refine trans ?_ (testArrival _)
      exact ⟨rfl, rfl⟩
    · exact refl p
  · split
    · exact closeGate p _
    · exact refl p
  · split
    · exact closeGate p _
    · exact refl p
  all_goals exact refl p

theorem cleanerAtSnapshot (p : Part) (snap : Snapshot) : CurvesKept p (p.cleanerAtSnapshot snap) := by
  unfold Part.cleanerAtSnapshot
  split <;> exact ⟨rfl, rfl⟩

theorem unitAtSnapshot (p : Part) (snap : Snapshot) (u : UnitNo) : CurvesKept p (p.unitAtSnapshot snap u) := by
  unfold Part.unitAtSnapshot
  split
  · simp only
    split
    · refine trans ?_ (unitMoves.dwellExpired _ u)
      exact ⟨rfl, rfl⟩
    · exact ⟨rfl, rfl⟩
  · exact refl p

theorem unitsAtSnapshot (snap : Snapshot) (us : List UnitNo) (p : Part) :
    CurvesKept p (unitsAtSnapshot snap us p) := by
  induction us generalizing p with
  | nil => exact refl p
  | cons u us ih => exact (unitAtSnapshot p snap u).trans (ih _)

/-- Once the curve table has taken a snapshot, the blocks that act on it leave the table alone. -/
theorem blocksAct (p : Part) (old : RackState) (snap : Snapshot) :
    CurvesKept (p.formCurves snap) (p.blocksAct old snap) :=
  ((((rackCleared _ old snap.rack).trans (dispatchAtSnapshot _ snap)).trans (sluiceAtSnapshot _ snap)).trans
    (cleanerAtSnapshot _ snap)).trans (unitsAtSnapshot snap _ _)

theorem recordSome (p : Part) (e : Option (EventCode × Option Int)) : CurvesKept p (p.recordSome e) := by
  unfold Part.recordSome
  split <;> exact ⟨rfl, rfl⟩

theorem formSnapshot (p : Part) : CurvesKept p p.formSnapshot := by
  unfold Part.formSnapshot
  refine trans (trans (trans ?_ (recordSome _ _)) (recordSome _ _)) (recordSome _ _)
  exact ⟨rfl, rfl⟩

theorem decideMode (p : Part) (snap : Snapshot) : CurvesKept p (p.decideMode snap) := ⟨rfl, rfl⟩

/-- What a snapshot makes of a table depends on that table and on the working copy alone. -/
theorem formCurves {p q : Part} (h : CurvesKept p q) (config : q.config = p.config) (snap : Snapshot) :
    CurvesKept (p.formCurves snap) (q.formCurves snap) := by
  obtain ⟨curves, inUse⟩ := h
  constructor <;> simp [Part.formCurves, Part.unitRecord, curves, inUse, config]

end CurvesKept

@[simp] theorem config_recordSome (p : Part) (e : Option (EventCode × Option Int)) :
    (p.recordSome e).config = p.config := by
  unfold Part.recordSome
  split <;> rfl

theorem config_formSnapshot (p : Part) : p.formSnapshot.config = p.config := by
  simp [Part.formSnapshot]

/-- The curve table after a round is the one that its snapshot forms from the table before it. -/
theorem curvesKept_round (p : Part) (cur : Currents) {q : Part} {snap : Snapshot} (hq : q = p.sampleChannels cur)
    (hs : snap = q.snapshotOf q.findInner q.findOuter) : CurvesKept (p.formCurves snap) (p.round cur) := by
  have sampled : CurvesKept p q ∧ q.config = p.config := hq ▸ ⟨⟨rfl, rfl⟩, rfl⟩
  have formed : CurvesKept (p.formCurves snap) (q.formSnapshot.formCurves snap) :=
    (sampled.1.trans (.formSnapshot q)).formCurves ((config_formSnapshot q).trans sampled.2) snap
  rw [round_eq p cur hq hs]
  exact (formed.trans (.blocksAct _ p.gauge.rack snap)).trans (.decideMode _ snap)

theorem curves_round (p : Part) (cur : Currents) (u : UnitNo) :
    let q := p.sampleChannels cur
    (p.round cur).curves.get u
      = deriveFrom p.config.station.fallbackHead (p.unitRecord u) (q.snapshotOf q.findInner q.findOuter)
          (p.curves.get u) := by
  intro q
  rw [(curvesKept_round p cur rfl rfl).curves]
  exact Six.get_ofFn _ u

theorem fallbackInUse_round (p : Part) (cur : Currents) :
    let q := p.sampleChannels cur
    (p.round cur).fallbackInUse
      = if formsFallback (q.snapshotOf q.findInner q.findOuter) then p.config.station.fallbackHead
        else p.fallbackInUse := by
  intro q
  rw [(curvesKept_round p cur rfl rfl).fallbackInUse]
  rfl

/-- The heads of a round are those of its snapshot by the table. -/
theorem headsAfterRound : Rules.HeadsAfterRound := by
  intro p cur u q r d read
  have formed : d = deriveFrom p.config.station.fallbackHead r (q.snapshotOf q.findInner q.findOuter)
      (p.curves.get u) := curves_round p cur u
  simp only [read, formed]
  exact headsByTable p.config.station.fallbackHead r (q.snapshotOf q.findInner q.findOuter) (p.curves.get u)

theorem fallbackHeadFirstUsed : Rules.FallbackHeadFirstUsed := by
  intro p cur q outer
  rw [fallbackInUse_round]
  refine ⟨fun inner lost => if_pos (formsFallback_of_noOuter inner lost), fun kept => if_neg ?_⟩
  rcases kept with noInner | ⟨quality, level⟩
  · exact ne_true_of_eq_false (formsFallback_of_noInner noInner)
  · exact ne_true_of_eq_false (formsFallback_of_outer quality level)

end Sys2Proof.Machine

open Sys2Proof Sys2Proof.Machine in
/-- Settles O18: after the curve table has taken the snapshot of a round, no block touches it. -/
theorem headsFormedAtSnapshot : Obligations.HeadsFormedAtSnapshot :=
  ⟨headsAfterRound, headsByTable, fallbackHeadFirstUsed⟩
end

section
/-! The lines of the units at a reset (chapters 3 and 13): O58, its first part. -/

namespace Sys2Proof.Machine

/-! ### Records appended in a row -/

/-- A record made now, of a value that needs no free value (R190). -/
def Part.entry (p : Part) (code : EventCode) (u : Option UnitNo) (value : Option Int) : Record :=
  ⟨p.accounting.clock, code, u, false, value⟩

/-- The class flags once these records are appended (R193). -/
def flagsAfter (flags : Byte) (rs : List Record) : Byte := rs.foldl (fun f r => f ||| r.code.cls.mark) flags

/-- The part with these records appended, the oldest first, and ALERT brought up to date. -/
def Part.withRecords (p : Part) (rs : List Record) : Part :=
  { p with
    events :=
      { records := rs.foldl appendRecord p.events.records
        flags := flagsAfter p.events.flags rs
        alert := alertOf (flagsAfter p.events.flags rs) p.config.enables } }

theorem events_withRecords (p : Part) (rs : List Record) :
    (p.withRecords rs).events
      = { records := rs.foldl appendRecord p.events.records
          flags := flagsAfter p.events.flags rs
          alert := alertOf (flagsAfter p.events.flags rs) p.config.enables } := rfl

@[simp] theorem unit_withRecords (p : Part) (rs : List Record) (u : UnitNo) : (p.withRecords rs).unit u = p.unit u :=
  rfl

theorem alert_withRecords (p : Part) (rs : List Record) :
    (p.withRecords rs).events.alert
      = alertOf (p.withRecords rs).events.flags (p.withRecords rs).config.enables := rfl

theorem record_eq_withRecords (p : Part) (code : EventCode) (u : Option UnitNo) {value : Option Int}
    (fits : ∀ v, value = some v → valueFits v = true) :
    p.record code u value = p.withRecords [p.entry code u value] := by
  cases value with
  | none => rfl
  | some v => simp [Part.record, Part.withRecords, Part.entry, flagsAfter, recordValue, usesFree, fits v rfl]

theorem withRecords_withRecords (p : Part) (a b : List Record) :
    (p.withRecords a).withRecords b = p.withRecords (a ++ b) := by
  simp [Part.withRecords, flagsAfter]

/-- Where ALERT is up to date, no record changes nothing. -/
theorem withRecords_nil {p : Part} (alert : p.events.alert = alertOf p.events.flags p.config.enables) :
    p.withRecords [] = p := by
  simp [Part.withRecords, flagsAfter, ← alert]

/-! ### The lines of one unit at a reset (R58) -/

/-- What the lines make of a unit at a reset; `stop` is its stop timer started now. -/
def PumpUnit.linesActed (r : UnitRecord) (stop : Option Timer) (pu : PumpUnit) : PumpUnit :=
  if r.enabled && pu.trip then { pu with state := .tripped, fault := some .motorTrip }
  else if pu.run && decide (r.stopTimeout = 0) then { pu with state := .tripped, fault := some .stopFail }
  else if pu.run then { pu with state := .stopping, stopOrigin := some .reset, stopTimer := stop }
  else pu

/-- The lines of unit `u` act on it at a reset. -/
def Part.linesAct (p : Part) (u : UnitNo) : Part :=
  p.modUnit u (PumpUnit.linesActed (p.unitRecord u) (p.startTimer (p.unitRecord u).stopTimeout))

/-- The record that the lines of unit `u` bring at a reset, if any (R58, R161). -/
def Part.lineRecords (p : Part) (u : UnitNo) : List Record :=
  if (p.unitRecord u).enabled && (p.unit u).trip then [p.entry .motorTrip (some u) (some 1)]
  else if (p.unit u).run && decide ((p.unitRecord u).stopTimeout = 0) then
    [p.entry .stopFail (some u) (some 8)]
  else []

/-- Unit `u` stands as a reset leaves it before its lines act. -/
def Part.FreshAt (p : Part) (u : UnitNo) : Prop :=
  ∃ lines history, p.unit u = PumpUnit.afterReset (p.unitRecord u) lines history

/-- No unit holds a reserved load, and the arbiter has none committed. -/
structure Part.NoLoads (p : Part) : Prop where
  reserved : ∀ u, (p.unit u).reserved = 0
  committed : p.arbiter.committed = 0

theorem loadsFell_of_noLoads {p : Part} (h : p.NoLoads) : p.loadsFell = p := by
  have sum : p.reservedSum = 0 := by
    simp only [Part.reservedSum, Nat.add_eq_zero_iff]
    exact ⟨⟨⟨⟨⟨h.reserved .u1, h.reserved .u2⟩, h.reserved .u3⟩, h.reserved .u4⟩, h.reserved .u5⟩, h.reserved .u6⟩
  have kept : p.sumLoads = p := by
    rw [Part.sumLoads, sum, ← h.committed]
  rw [Part.loadsFell, sum, h.committed, if_neg (Nat.not_lt_zero _), kept]

theorem modUnit_congr {p : Part} {u : UnitNo} {f g : PumpUnit → PumpUnit} (h : f (p.unit u) = g (p.unit u)) :
    p.modUnit u f = p.modUnit u g := by
  unfold Part.unit at h
  simp [Part.modUnit, h]

theorem record_modUnit (p : Part) (u : UnitNo) (f : PumpUnit → PumpUnit) (c : EventCode) (w : Option UnitNo)
    (v : Option Int) : (p.record c w v).modUnit u f = (p.modUnit u f).record c w v := rfl

theorem stopFails_eq (p : Part) (u : UnitNo) :
    p.stopFails u
      = (p.modUnit u fun pu =>
          { pu.enter (p.unitRecord u).outlet .tripped with fault := some .stopFail, stopOrigin := none }).record
        .stopFail (some u) ((p.unit u).stopOrigin.map fun o => (o.code : Int)) := by
  unfold Part.stopFails Part.tripUnit Part.enterUnit
  rw [record_modUnit, modUnit_modUnit, modUnit_modUnit]

/-- A unit that a reset leaves is IDLE or OFFLINE: it takes the stop order of the reset, and holds no start slot. -/
theorem stopOrder_of_fresh {p : Part} {u : UnitNo} (fresh : p.FreshAt u) (run : (p.unit u).run = true) :
    p.stopOrder u .reset
      = (((p.modUnit u fun pu => { pu with stopOrigin := some .reset }).enterStopping u).stopIfZero u).loadsFell := by
  obtain ⟨lines, history, h⟩ := fresh
  have takes : (p.unit u).takesStop .reset = true := by
    rw [h]
    cases e : (p.unitRecord u).enabled <;> simp [PumpUnit.afterReset, PumpUnit.takesStop, e]
  have aside : (p.unit u).inStart = false := by
    rw [h]
    cases e : (p.unitRecord u).enabled <;> simp [PumpUnit.afterReset, PumpUnit.inStart, e]
  simp [Part.stopOrder, Part.takeStop, takes, aside, run]

/-- A unit that a reset leaves drives no line and runs no timer but a stop timer started since: a change to a state that
drives no line cancels that timer and nothing else. -/
theorem enter_afterReset (r : UnitRecord) (lines : UnitLines) (history : List Word32) (outlet : Outlet) {st : UnitState}
    (halts : st.holdsSiphon = false) (before : UnitState) (o : Option StopOrigin) (t : Option Timer) :
    PumpUnit.enter outlet st
        { PumpUnit.afterReset r lines history with state := before, stopOrigin := o, stopTimer := t }
      = { PumpUnit.afterReset r lines history with
          state := st
          stopOrigin := o
          stopTimer := keepTimer (st == .stopping) t } := by
  obtain ⟨start, prime⟩ : st.drivesStart = false ∧ st.drivesPrime = false := by
    simpa [UnitState.holdsSiphon] using halts
  simp [PumpUnit.enter, PumpUnit.afterReset, PumpUnit.atReset, airvalveOf, halts, start, prime, keepTimer]

section
variable {p : Part} {u : UnitNo} (fresh : p.FreshAt u)

include fresh

theorem tripUnit_of_fresh (f : FaultCode) :
    p.tripUnit u f = p.modUnit u fun pu => { pu with state := .tripped, fault := some f } := by
  obtain ⟨lines, history, h⟩ := fresh
  unfold Part.tripUnit Part.enterUnit
  rw [modUnit_modUnit]
  refine modUnit_congr ?_
  rw [h]
  exact congrArg (fun pu : PumpUnit => { pu with fault := some f })
    (enter_afterReset _ lines history _ (st := .tripped) rfl _ none none)

theorem enterStopping_of_fresh :
    (p.modUnit u fun pu => { pu with stopOrigin := some .reset }).enterStopping u
      = p.modUnit u fun pu =>
        { pu with
          state := .stopping
          stopOrigin := some .reset
          stopTimer := p.startTimer (p.unitRecord u).stopTimeout } := by
  obtain ⟨lines, history, h⟩ := fresh
  unfold Part.enterStopping Part.enterUnit
  rw [modUnit_modUnit, modUnit_modUnit]
  refine modUnit_congr ?_
  rw [h]
  exact congrArg (fun pu : PumpUnit => { pu with stopTimer := p.startTimer (p.unitRecord u).stopTimeout })
    (enter_afterReset _ lines history _ (st := .stopping) rfl _ (some .reset) none)

theorem stopFails_of_fresh :
    ((p.modUnit u fun pu => { pu with stopOrigin := some .reset }).enterStopping u).stopFails u
      = (p.modUnit u fun pu => { pu with state := .tripped, fault := some .stopFail }).withRecords
          [p.entry .stopFail (some u) (some 8)] := by
  rw [enterStopping_of_fresh fresh, stopFails_eq, modUnit_modUnit,
    record_eq_withRecords _ _ _ (by simp [StopOrigin.code, valueFits])]
  obtain ⟨lines, history, h⟩ := fresh
  refine congrArg₂ Part.withRecords (modUnit_congr ?_) ?_
  · rw [h]
    exact congrArg (fun pu : PumpUnit => { pu with fault := some .stopFail, stopOrigin := none })
      (enter_afterReset _ lines history _ (st := .tripped) rfl .stopping (some .reset) _)
  · rw [Part.unit_modUnit_self]
    rfl

end

theorem Part.NoLoads.modUnit {p : Part} (h : p.NoLoads) {u : UnitNo} {f : PumpUnit → PumpUnit}
    (kept : (f (p.unit u)).reserved = (p.unit u).reserved) : (p.modUnit u f).NoLoads := by
  refine ⟨fun v => ?_, h.committed⟩
  rw [Part.unit_modUnit]
  split
  · rw [kept, h.reserved]
  · exact h.reserved v

theorem Part.NoLoads.withRecords {p : Part} (h : p.NoLoads) (rs : List Record) : (p.withRecords rs).NoLoads :=
  ⟨h.reserved, h.committed⟩

theorem reserved_linesActed (r : UnitRecord) (stop : Option Timer) (pu : PumpUnit) :
    (pu.linesActed r stop).reserved = pu.reserved := by
  simp only [PumpUnit.linesActed, apply_ite PumpUnit.reserved, ite_self]

section
variable {p : Part} {u : UnitNo}

theorem linesAct_of_trip (h : ((p.unitRecord u).enabled && (p.unit u).trip) = true) :
    p.linesAct u = p.modUnit u fun pu => { pu with state := .tripped, fault := some .motorTrip } :=
  modUnit_congr (if_pos h)

variable (noTrip : ((p.unitRecord u).enabled && (p.unit u).trip) ≠ true)

include noTrip

theorem linesAct_of_stopFail (run : (p.unit u).run = true) (zero : (p.unitRecord u).stopTimeout = 0) :
    p.linesAct u = p.modUnit u fun pu => { pu with state := .tripped, fault := some .stopFail } :=
  modUnit_congr ((if_neg noTrip).trans (if_pos (by simp [run, zero])))

theorem linesAct_of_run (run : (p.unit u).run = true) (long : (p.unitRecord u).stopTimeout ≠ 0) :
    p.linesAct u = p.modUnit u fun pu =>
      { pu with
        state := .stopping
        stopOrigin := some .reset
        stopTimer := p.startTimer (p.unitRecord u).stopTimeout } :=
  modUnit_congr ((if_neg noTrip).trans ((if_neg (by simp [long])).trans (if_pos run)))

theorem linesAct_of_still (still : (p.unit u).run = false) : p.linesAct u = p := by
  have kept : (p.unit u).linesActed (p.unitRecord u) (p.startTimer (p.unitRecord u).stopTimeout) = p.unit u := by
    simp [PumpUnit.linesActed, noTrip, still]
  unfold Part.unit at kept
  simp [Part.linesAct, Part.modUnit, kept]

end

theorem noLoads_linesAct {p : Part} (h : p.NoLoads) (u : UnitNo) : (p.linesAct u).NoLoads :=
  h.modUnit (reserved_linesActed _ _ _)

/-- The lines of a unit that a reset leaves act on that unit and append their record (R58). -/
theorem unitAtReset_of_fresh {p : Part} {u : UnitNo} (fresh : p.FreshAt u) (loads : p.NoLoads)
    (alert : p.events.alert = alertOf p.events.flags p.config.enables) :
    p.unitAtReset u = (p.linesAct u).withRecords (p.lineRecords u) := by
  unfold Part.unitAtReset Part.lineRecords
  by_cases trips : ((p.unitRecord u).enabled && (p.unit u).trip) = true
  · rw [if_pos trips, if_pos trips, linesAct_of_trip trips, tripUnit_of_fresh fresh,
      record_eq_withRecords _ _ _ (by simp [valueFits])]
    rfl
  rw [if_neg trips, if_neg trips]
  cases run : (p.unit u).run with
  | false =>
    simp only [Bool.false_eq_true, if_false, Bool.false_and]
    rw [linesAct_of_still trips run, withRecords_nil alert]
  | true =>
    simp only [if_true, Bool.true_and, decide_eq_true_eq]
    rw [stopOrder_of_fresh fresh run, Part.stopIfZero]
    by_cases zero : (p.unitRecord u).stopTimeout = 0
    · rw [if_pos (by exact zero), if_pos zero, stopFails_of_fresh fresh, ← linesAct_of_stopFail trips run zero]
      exact loadsFell_of_noLoads ((noLoads_linesAct loads u).withRecords _)
    · rw [if_neg (by exact zero), if_neg zero, enterStopping_of_fresh fresh, ← linesAct_of_run trips run zero,
        loadsFell_of_noLoads (noLoads_linesAct loads u)]
      exact (withRecords_nil (by exact alert)).symm

/-! ### The lines of the units in a row (R161) -/

theorem unit_linesAct_of_ne (p : Part) {u v : UnitNo} (h : v ≠ u) : (p.linesAct u).unit v = p.unit v :=
  Six.get_set_ne _ _ h

theorem lineRecords_linesAct_of_ne (p : Part) {u v : UnitNo} (h : v ≠ u) :
    (p.linesAct u).lineRecords v = p.lineRecords v := by
  unfold Part.lineRecords
  rw [unit_linesAct_of_ne p h]
  rfl

theorem foldl_linesAct_withRecords (us : List UnitNo) (p : Part) (rs : List Record) :
    us.foldl Part.linesAct (p.withRecords rs) = (us.foldl Part.linesAct p).withRecords rs := by
  induction us generalizing p with
  | nil => rfl
  | cons u us ih => exact ih (p.linesAct u)

/-- Units that no line has reached yet stand as the reset left them, so each acts by itself. -/
theorem unitsAtReset_of_fresh (us : List UnitNo) : ∀ {p : Part}, us.Nodup → (∀ u ∈ us, p.FreshAt u) → p.NoLoads →
    p.events.alert = alertOf p.events.flags p.config.enables →
    unitsAtReset us p = (us.foldl Part.linesAct p).withRecords (us.flatMap p.lineRecords) := by
  induction us with
  | nil => exact fun _ _ _ alert => (withRecords_nil alert).symm
  | cons u us ih =>
    intro p distinct fresh loads alert
    obtain ⟨once, distinct⟩ := List.nodup_cons.mp distinct
    have other {v : UnitNo} (hv : v ∈ us) : v ≠ u := fun e => once (e ▸ hv)
    have rest : ∀ v ∈ us, (p.linesAct u).FreshAt v := fun v hv => by
      unfold Part.FreshAt
      rw [unit_linesAct_of_ne p (other hv)]
      exact fresh v (by simp [hv])
    have records : us.flatMap (p.linesAct u).lineRecords = us.flatMap p.lineRecords :=
      List.flatMap_congr fun v hv => lineRecords_linesAct_of_ne p (other hv)
    rw [unitsAtReset, unitAtReset_of_fresh (fresh u (by simp)) loads alert,
      ih distinct (by exact rest) ((noLoads_linesAct loads u).withRecords _) (alert_withRecords _ _),
      foldl_linesAct_withRecords, withRecords_withRecords]
    exact congrArg (fun rs => Part.withRecords _ (p.lineRecords u ++ rs)) records

end Sys2Proof.Machine
end

section
/-! The two resets (chapter 13): O58, its second part. -/

namespace Sys2Proof.Machine

/-! ### The effective FLOAT_LOW (R96) -/

theorem stopAll_of_noneInService (o : StopOrigin) (us : List UnitNo) {p : Part}
    (h : ∀ u, (p.unit u).inService = false) : stopAll o us p = p := by
  induction us with
  | nil => rfl
  | cons u us ih => rw [stopAll, h u, if_neg Bool.false_ne_true, ih]

theorem emptyQueue_of_empty {p : Part} (h : p.arbiter.queue = []) : p.emptyQueue = p := by
  rw [Part.emptyQueue, h, idleUnits, Part.setQueue, ← h]

/-- The low-water hold on or off. -/
def Part.setHold (p : Part) (b : Bool) : Part := { p with dispatcher.hold := b }

theorem setHold_withRecords (p : Part) (b : Bool) (rs : List Record) :
    (p.withRecords rs).setHold b = (p.setHold b).withRecords rs := rfl

/-- With no unit in service and no entry in the queue the protection sets the hold and nothing else. -/
theorem protect_of_noneInService {p : Part} (service : ∀ u, (p.unit u).inService = false)
    (queue : p.arbiter.queue = []) : p.protect = p.setHold true := by
  rw [Part.protect, stopAll_of_noneInService _ _ service, emptyQueue_of_empty queue]
  rfl

/-- At a reset the hold follows the effective FLOAT_LOW, with STOP_LEVEL where it is asserted (R96, R161). -/
theorem floatLowAtReset_of_noneInService {p : Part} (service : ∀ u, (p.unit u).inService = false)
    (queue : p.arbiter.queue = []) (off : p.dispatcher.hold = false)
    (alert : p.events.alert = alertOf p.events.flags p.config.enables) :
    p.floatLowAtReset
      = (p.setHold p.gauge.effLow).withRecords
          (if p.gauge.effLow then [p.entry .stopLevel none none] else []) := by
  unfold Part.floatLowAtReset
  cases low : p.gauge.effLow with
  | false =>
    have same : p.setHold false = p := by rw [Part.setHold, ← off]
    simp only [Bool.false_eq_true, if_false]
    rw [same, withRecords_nil alert]
  | true =>
    simp only [if_true]
    rw [protect_of_noneInService service queue, record_eq_withRecords _ _ _ (value := none) nofun]
    rfl

/-! ### The part before its first round (R161) -/

section
variable (p : Part) (restart : Bool) (l : FieldLines)

theorem unit_blank (u : UnitNo) :
    (p.blank restart l).unit u
      = PumpUnit.afterReset ((p.blank restart l).unitRecord u) (l.units.get u)
          (if restart then (p.unit u).history else []) := Six.get_ofFn _ u

theorem blank_fresh (u : UnitNo) : (p.blank restart l).FreshAt u := ⟨_, _, unit_blank p restart l u⟩

theorem blank_noLoads : (p.blank restart l).NoLoads :=
  ⟨fun u => by rw [unit_blank]; rfl, rfl⟩

/-- The records of a reset in their order (R161, R196, R197): the reset itself, STORE_INVALID, the units, STOP_LEVEL. -/
def Part.resetRecords (b : Part) (restart : Bool) : List Record :=
  [b.entry (if restart then .partRestart else .powerOn) none none]
    ++ (if b.store.configured then [] else [b.entry .storeInvalid none none])
    ++ UnitNo.all.flatMap b.lineRecords
    ++ if b.gauge.effLow then [b.entry .stopLevel none none] else []

theorem announce_eq (b : Part) :
    b.announce restart
      = b.withRecords ([b.entry (if restart then .partRestart else .powerOn) none none]
          ++ if b.store.configured then [] else [b.entry .storeInvalid none none]) := by
  unfold Part.announce
  simp only [record_eq_withRecords _ _ _ (value := none) nofun]
  split
  · rfl
  · exact withRecords_withRecords _ _ _

/-- The units once the lines of all six have acted. -/
theorem units_foldl_linesAct (b : Part) :
    (UnitNo.all.foldl Part.linesAct b).units
      = Six.ofFn fun u =>
          (b.unit u).linesActed (b.unitRecord u) (b.startTimer (b.unitRecord u).stopTimeout) := rfl

theorem inService_linesActed (r r' : UnitRecord) (lines : UnitLines) (history : List Word32) (t : Option Timer) :
    ((PumpUnit.afterReset r lines history).linesActed r' t).inService = false := by
  unfold PumpUnit.linesActed
  split
  · rfl
  split
  · rfl
  split
  · rfl
  · cases e : r.enabled <;> simp [PumpUnit.afterReset, PumpUnit.inService, e]

/-- A reset, up to the round that it takes itself (R16). -/
theorem resetTo_eq (inp : FieldInputs) :
    let b := p.blank restart inp.lines
    p.resetTo restart inp
      = (((UnitNo.all.foldl Part.linesAct b).setHold inp.lines.floatLow).withRecords (b.resetRecords restart)).round
          inp.currents := by
  intro b
  have lines (rs : List Record) : unitsAtReset UnitNo.all (b.withRecords rs)
      = (UnitNo.all.foldl Part.linesAct b).withRecords (rs ++ UnitNo.all.flatMap b.lineRecords) := by
    rw [unitsAtReset_of_fresh (p := b.withRecords rs) UnitNo.all (by decide)
      (fun u _ => blank_fresh p restart inp.lines u) ((blank_noLoads p restart inp.lines).withRecords rs)
      (alert_withRecords _ _), foldl_linesAct_withRecords, withRecords_withRecords]
    rfl
  have service (rs : List Record) (u : UnitNo) :
      (((UnitNo.all.foldl Part.linesAct b).withRecords rs).unit u).inService = false := by
    rw [unit_withRecords, Part.unit, units_foldl_linesAct, Six.get_ofFn, unit_blank]
    exact inService_linesActed _ _ _ _ _
  unfold Part.resetTo
  rw [announce_eq, lines, floatLowAtReset_of_noneInService (service _) rfl rfl (alert_withRecords _ _),
    setHold_withRecords, withRecords_withRecords]
  rfl

end

/-! ### The part that a reset leaves, block by block (R160, R197) -/

/-- Two parts whose blocks agree are the same. -/
theorem Part.ext_blocks {p q : Part} (gauge : p.gauge = q.gauge) (curves : p.curves = q.curves)
    (fallbackInUse : p.fallbackInUse = q.fallbackInUse) (units : p.units = q.units)
    (estimator : p.estimator = q.estimator) (dispatcher : p.dispatcher = q.dispatcher)
    (arbiter : p.arbiter = q.arbiter) (sluice : p.sluice = q.sluice) (cleaner : p.cleaner = q.cleaner)
    (plan : p.plan = q.plan) (supervision : p.supervision = q.supervision)
    (accounting : p.accounting = q.accounting) (link : p.link = q.link) (events : p.events = q.events)
    (store : p.store = q.store) (config : p.config = q.config) (roundDue : p.roundDue = q.roundDue)
    (freeCount : p.freeCount = q.freeCount) : p = q := by
  cases p
  cases q
  simp_all

/-- A command that takes a reset changes the part by that reset; the end of the reply before it goes down with the link
controller that the reset sets (R160, R182). -/
theorem exec_of_takesReset {c : Instr} {s : State} {restart : Bool} {inp : FieldInputs}
    (h : takesReset c s restart inp) : exec c s = .next (s.withPart (s.part.resetTo restart inp)) := by
  rcases h with ⟨rfl, rfl⟩ | ⟨rfl, rfl, replying, after⟩
  · rfl
  · have ends : s.part.replyEnds inp = s.part.resetTo true inp := by
      rw [Part.replyEnds, after]
      rfl
    show execReplyEnd inp s = _
    simp [execReplyEnd, State.act, State.withPart, replying, ends]

theorem curves_blank (p : Part) (restart : Bool) (l : FieldLines) :
    let config := loadedConfig p.store.image
    (p.blank restart l).curves
      = Six.ofFn fun u =>
          deriveAt (config.units.get u)
            (min 30000 (config.station.fallbackHead + (config.units.get u).loss)) .fallback :=
  congrArg Six.ofFn (funext fun _ => deriveFallback_eq _ _)

theorem sluiceAfterReset_eq (l : FieldLines) :
    Sluice.afterReset l
      = { state := sluiceStateAt l
          mode := .auto
          travel := none
          waiting := sluiceStateAt l == .closing
          cause := if sluiceStateAt l = .closing then some .reset else none
          driveOpen := false
          driveClose := false
          atOpen := l.sluiceAtOpen
          atClosed := l.sluiceAtClosed } := by
  simp only [Sluice.afterReset, beq_iff_eq]

/-- ALERT in the words of R195. -/
theorem alertOf_eq (flags enables : Byte) : alertOf flags enables = decide (flags &&& enables ≠ 0#8) := by
  rw [alertOf, bne, decide_not]
  rfl

theorem resetSetsEveryBlock : Rules.ResetSetsEveryBlock := by
  intro c s restart inp takes p l config st configured now clock timer unlessZero totals trips stopFails record records
    unit channel gate flags band
  have units : (UnitNo.all.foldl Part.linesAct (p.blank restart l)).units = Six.ofFn unit := by
    rw [units_foldl_linesAct]
    refine congrArg Six.ofFn (funext fun u => ?_)
    rw [unit_blank]
    cases restart <;> rfl
  have lineRecords (u : UnitNo) : (p.blank restart l).lineRecords u
      = if trips u then [record .motorTrip (some u) (some 1)]
        else if stopFails u then [record .stopFail (some u) (some 8)] else [] := by
    rw [Part.lineRecords, unit_blank]
    cases restart <;> rfl
  have appended : (p.blank restart l).resetRecords restart = records := by
    rw [Part.resetRecords, funext lineRecords]
    cases restart <;> rfl
  rw [exec_of_takesReset takes, resetTo_eq]
  refine next_withPart s (congrArg (Part.round · inp.currents) (Part.ext_blocks (gauge := rfl)
    (curves := curves_blank p restart l) (fallbackInUse := rfl) (units := units) (estimator := ?estimator)
    (dispatcher := ?dispatcher) (arbiter := rfl) (sluice := sluiceAfterReset_eq l) (cleaner := ?cleaner)
    (plan := rfl) (supervision := ?supervision) (accounting := ?accounting) (link := rfl) (events := ?events)
    (store := rfl) (config := rfl) (roundDue := rfl) (freeCount := rfl)))
  case events =>
    rw [events_withRecords, appended, alertOf_eq]
    cases restart <;> rfl
  all_goals cases restart <;> rfl

/-! ### The state after reset -/

/-- Every field line released and no gauge current, the model's choice of a field (log 1, 2). -/
def fieldReleased : FieldInputs :=
  ⟨⟨Six.const ⟨false, false, false⟩, false, false, false, false, false, false, false⟩, ⟨0, 0, 0, 0⟩⟩

/-- A power-on reset keeps nothing but the stored image and the count of free values (R59). -/
theorem blank_powerOn (p : Part) (l : FieldLines) :
    p.blank false l = { Part.reset with store.image := p.store.image, freeCount := p.freeCount }.blank false l := rfl

theorem resetTo_reset : Part.reset.resetTo false fieldReleased = Part.reset := by decide +kernel

theorem stateAfterReset : Rules.StateAfterReset := by
  refine ⟨fun p image count => ?_, ⟨by decide, by decide⟩, fun u => ?_, rfl, rfl⟩
  · have blank : p.blank false fieldReleased.lines = Part.reset.blank false fieldReleased.lines := by
      rw [blank_powerOn p, image, count]
      rfl
    have reset : p.resetTo false fieldReleased = Part.reset := by
      rw [resetTo_eq, blank, ← resetTo_eq, resetTo_reset]
    exact next_withPart ⟨p, []⟩ reset
  · cases u <;> exact ⟨rfl, rfl, rfl⟩

end Sys2Proof.Machine

open Sys2Proof Sys2Proof.Machine in
/-- Settles O58, from what each block is set to and from the reset of the part that has nothing stored. -/
theorem bothResets : Obligations.BothResets := ⟨resetSetsEveryBlock, stateAfterReset⟩
end

section
/-! SUPPORT. What every command keeps of the six units: a predicate of a unit and its record that each move of one unit
keeps; and the invariants proved from the moves: output lines, timers, ALERT, the bounded lists. -/

namespace Sys2Proof.Machine

/-! ### Predicates of the six units -/

/-- Every unit meets a predicate of its unit record and its controller. -/
def Part.EachUnit (P : UnitRecord → PumpUnit → Prop) (p : Part) : Prop := ∀ u, P (p.unitRecord u) (p.unit u)

/-- A predicate of a unit that every move of one unit keeps: the moves of `UnitMoves` and `PartMoves` as they meet the
unit itself, and the two sources outside them, a written record and a reset. -/
structure UnitInvariant (P : UnitRecord → PumpUnit → Prop) : Prop where
  enter : ∀ {r pu} st, P r pu → P r (pu.enter r.outlet st)
  starting : ∀ {r pu} t now, P r pu →
    P r { pu.enter r.outlet .starting with startTimer := t, history := appendHistory pu.history now }
  priming : ∀ {r pu} t, P r pu → P r { pu.enter r.outlet .priming with primeTimer := t }
  resting : ∀ {r pu} t, P r pu → P r { pu.enter r.outlet .resting with restTimer := t }
  stopping : ∀ {r pu} t, P r pu → P r { pu.enter r.outlet .stopping with stopTimer := t }
  running : ∀ {r pu} t b n, P r pu →
    P r { pu.enter r.outlet .running with minRunTimer := t, minRunElapsed := b, retriesLeft := n }
  quiet : ∀ {r pu} {f : PumpUnit → PumpUnit}, QuietChange f → P r pu → P r (f pu)
  lines : ∀ {r pu} a b c d, P r pu → P r { pu with run := a, trip := b, primed := c, authority := d }
  runLoss : ∀ {r pu} t, pu.state = .running → P r pu → P r { pu with runLossTimer := t }
  dwell : ∀ {r pu} t, pu.state = .running → P r pu → P r { pu with dwellTimer := t }
  recordWritten : ∀ {r pu} (r' : UnitRecord), r'.outlet = r.outlet ∨ pu.state = .offline → P r pu → P r' pu
  reset : ∀ {r pu} (r' : UnitRecord) l (keep : Bool), P r pu →
    P r' (PumpUnit.afterReset r' l (if keep then pu.history else []))

section
variable {P : UnitRecord → PumpUnit → Prop} {p : Part}

/-- Units and configuration decide what holds of each unit. -/
theorem Part.EachUnit.congr {q : Part} (h : p.EachUnit P) (hu : q.units = p.units) (hc : q.config = p.config) :
    q.EachUnit P := fun u => by
  rw [Part.unit_of_units hu, Part.unitRecord_of_config hc]
  exact h u

/-- A change of one unit. -/
theorem Part.EachUnit.modUnit (h : p.EachUnit P) (u : UnitNo) {f : PumpUnit → PumpUnit}
    (k : P (p.unitRecord u) (p.unit u) → P (p.unitRecord u) (f (p.unit u))) : (p.modUnit u f).EachUnit P := fun v => by
  rw [unitRecord_modUnit, Part.unit_modUnit]
  split
  · subst v
    exact k (h u)
  · exact h v

/-- The same change of every unit. -/
theorem Part.EachUnit.allUnits (h : p.EachUnit P) {f : PumpUnit → PumpUnit}
    (k : ∀ {r pu}, P r pu → P r (f pu)) :
    Part.EachUnit P { p with units := Six.ofFn fun u => f (p.units.get u) } := fun u => by
  have unit : Part.unit { p with units := Six.ofFn fun u => f (p.units.get u) } u = f (p.unit u) := Six.get_ofFn _ u
  rw [unit]
  exact k (h u)

theorem setReserved_zero_quiet : QuietChange fun pu => { pu with reserved := 0 } := by
  constructor <;> intro pu <;> first | rfl | exact le_rfl | exact .inl rfl

/-- What every move of one unit keeps, every command keeps of each unit. -/
theorem UnitInvariant.commandMoves (i : UnitInvariant P) : CommandMoves fun p q => p.EachUnit P → q.EachUnit P where
  refl _ h := h
  trans a b h := b (a h)
  arbiter _ _ _ _ h := h
  record _ _ _ _ h := h
  roundDue _ _ h := h
  enter _ u st h := h.modUnit u (i.enter st)
  starting p u h := by
    have entered : ((p.enterUnit u .starting).modUnit u fun pu =>
        { pu with
          startTimer := p.startTimer (p.unitRecord u).startTimeout
          history := appendHistory pu.history p.accounting.uptime }).EachUnit P := by
      rw [Part.enterUnit, modUnit_modUnit]
      exact h.modUnit u (i.starting _ _)
    exact entered.congr rfl rfl
  priming _ u _ h := by
    rw [Part.enterUnit, modUnit_modUnit]
    exact h.modUnit u (i.priming _)
  resting _ u h := by
    rw [Part.enterResting, Part.enterUnit, modUnit_modUnit]
    exact h.modUnit u (i.resting _)
  stopping _ u h := by
    rw [Part.enterStopping, Part.enterUnit, modUnit_modUnit]
    exact h.modUnit u (i.stopping _)
  quiet _ u _ k h := h.modUnit u (i.quiet k)
  runLine _ u _ h := h.modUnit u (i.lines _ _ _ _)
  tripLine _ u _ h := h.modUnit u (i.lines _ _ _ _)
  primedLine _ u _ h := h.modUnit u (i.lines _ _ _ _)
  authority _ u _ h := h.modUnit u (i.lines _ _ _ _)
  allAuto _ h := h.allUnits fun k => i.lines _ _ _ _ k
  zeroLoads _ h := h.allUnits (i.quiet setReserved_zero_quiet)
  running _ u h := by
    rw [Part.enterUnit, modUnit_modUnit]
    exact h.modUnit u (i.running _ _ _)
  runLoss _ u t hs h := h.modUnit u (i.runLoss t hs)
  dwell _ u t hs h := h.modUnit u (i.dwell t hs)
  gauge _ _ h := h
  curves _ _ _ h := h
  dispatcher _ _ h := h
  freeCount _ _ h := h
  budget _ _ _ h := h
  store _ _ h := h
  sluice _ _ _ _ h := h
  estimator _ _ _ _ h := h
  cleaner _ _ _ h := h
  supervision _ _ _ h := h
  planClock _ _ _ _ h := h
  linkAside _ _ _ h := h
  events _ _ _ h := h
  config _ c _ ho _ h := fun u => i.recordWritten (c.units.get u) (ho u) (h u)
  link _ _ h := h
  blank p restart l h := fun u => by
    rw [unit_blank]
    exact i.reset ((loadedConfig p.store.image).units.get u) _ restart (h u)

end

/-! ### Output lines (R31) -/

/-- The output lines of a unit are the ones that its state and its outlet give (R31). -/
structure PumpUnit.LinesFollow (r : UnitRecord) (pu : PumpUnit) : Prop where
  start : pu.startOut = pu.state.drivesStart
  prime : pu.primeOut = pu.state.drivesPrime
  airvalve : pu.airvalveOut = airvalveOf r.outlet pu.state

theorem unitLinesFollow_iff (p : Part) : p.UnitLinesFollow ↔ p.EachUnit PumpUnit.LinesFollow :=
  ⟨fun h u => ⟨(h u).1, (h u).2.1, (h u).2.2⟩, fun h u => ⟨(h u).start, (h u).prime, (h u).airvalve⟩⟩

/-- In OFFLINE AIRVALVE is released whatever the outlet (R31). -/
theorem airvalveOf_offline (o : Outlet) : airvalveOf o .offline = false := by
  simp [airvalveOf, UnitState.holdsSiphon, UnitState.drivesStart, UnitState.drivesPrime]

theorem airvalveOf_idle (o : Outlet) : airvalveOf o .idle = false := by
  simp [airvalveOf, UnitState.holdsSiphon, UnitState.drivesStart, UnitState.drivesPrime]

/-- A change of state sets the lines, and nothing else touches them or the state; a unit record is written with another
outlet in OFFLINE alone, where no outlet asserts AIRVALVE. -/
theorem linesFollow_invariant : UnitInvariant PumpUnit.LinesFollow where
  enter _ _ := ⟨rfl, rfl, rfl⟩
  starting _ _ _ := ⟨rfl, rfl, rfl⟩
  priming _ _ := ⟨rfl, rfl, rfl⟩
  resting _ _ := ⟨rfl, rfl, rfl⟩
  stopping _ _ := ⟨rfl, rfl, rfl⟩
  running _ _ _ _ := ⟨rfl, rfl, rfl⟩
  quiet k h := ⟨by rw [k.startOut, k.state, h.start], by rw [k.primeOut, k.state, h.prime],
    by rw [k.airvalveOut, k.state, h.airvalve]⟩
  lines _ _ _ _ h := ⟨h.start, h.prime, h.airvalve⟩
  runLoss _ _ h := ⟨h.start, h.prime, h.airvalve⟩
  dwell _ _ h := ⟨h.start, h.prime, h.airvalve⟩
  recordWritten _ ho h := by
    refine ⟨h.start, h.prime, h.airvalve.trans ?_⟩
    rcases ho with e | e
    · rw [e]
    · simp only [e, airvalveOf_offline]
  reset r' _ _ _ := by
    cases e : r'.enabled <;>
      constructor <;> simp [PumpUnit.afterReset, PumpUnit.atReset, e, UnitState.drivesStart, UnitState.drivesPrime,
        airvalveOf_offline, airvalveOf_idle]

/-! ### Timers (R30) -/

/-- A timer that a change of state keeps runs in that state. -/
theorem isSome_keepTimer {may : Bool} {t : Option Timer} (h : (keepTimer may t).isSome = true) : may = true := by
  cases may
  · simp [keepTimer] at h
  · rfl

theorem timersFit_enter (pu : PumpUnit) (o : Outlet) (st : UnitState) : (pu.enter o st).timersFit := by
  refine ⟨?_, ?_, ?_, ?_, ?_, ?_, ?_⟩ <;> exact fun h => eq_of_beq (isSome_keepTimer h)

theorem timerKept.isSome {old new : Option Timer} (h : timerKept old new) (r : new.isSome = true) :
    old.isSome = true := by
  rcases h with rfl | rfl
  · exact r
  · simp at r

/-- A change of state cancels the timers of other states, a timer is started in its own state alone, and a change that
keeps the state starts none. -/
theorem timersFit_invariant : UnitInvariant fun _ => PumpUnit.timersFit where
  enter st _ := timersFit_enter _ _ st
  starting {r pu} _ _ _ := by
    obtain ⟨a, -, b⟩ := timersFit_enter pu r.outlet .starting
    exact ⟨a, fun _ => rfl, b⟩
  priming {r pu} _ _ := by
    obtain ⟨-, b⟩ := timersFit_enter pu r.outlet .priming
    exact ⟨fun _ => rfl, b⟩
  resting {r pu} _ _ := by
    obtain ⟨a, b, c, d, -, e⟩ := timersFit_enter pu r.outlet .resting
    exact ⟨a, b, c, d, fun _ => rfl, e⟩
  stopping {r pu} _ _ := by
    obtain ⟨a, b, -, c⟩ := timersFit_enter pu r.outlet .stopping
    exact ⟨a, b, fun _ => rfl, c⟩
  running {r pu} _ _ _ _ := by
    obtain ⟨a, b, c, -, d⟩ := timersFit_enter pu r.outlet .running
    exact ⟨a, b, c, fun _ => rfl, d⟩
  quiet {_ pu _} k h := by
    obtain ⟨a, b, c, d, e, f, g⟩ := h
    have s := k.state pu
    exact ⟨fun r => s.trans (a ((k.primeTimer pu).isSome r)), fun r => s.trans (b ((k.startTimer pu).isSome r)),
      fun r => s.trans (c ((k.stopTimer pu).isSome r)), fun r => s.trans (d ((k.minRunTimer pu).isSome r)),
      fun r => s.trans (e ((k.restTimer pu).isSome r)), fun r => s.trans (f ((k.runLossTimer pu).isSome r)),
      fun r => s.trans (g ((k.dwellTimer pu).isSome r))⟩
  lines _ _ _ _ h := h
  runLoss _ hs h := by
    obtain ⟨a, b, c, d, e, -, g⟩ := h
    exact ⟨a, b, c, d, e, fun _ => hs, g⟩
  dwell _ hs h := by
    obtain ⟨a, b, c, d, e, f, -⟩ := h
    exact ⟨a, b, c, d, e, f, fun _ => hs⟩
  recordWritten _ _ h := h
  reset _ _ _ _ := by simp [PumpUnit.timersFit, PumpUnit.afterReset, PumpUnit.atReset]

/-! ### Bounded lists (R34, R51, R62) -/

theorem length_appendHistory {h : List Word32} (k : h.length ≤ 12) (now : Word32) :
    (appendHistory h now).length ≤ 12 := by
  unfold appendHistory
  split <;> simp <;> omega

theorem history_invariant : UnitInvariant fun _ pu => pu.history.length ≤ 12 where
  enter _ h := h
  starting _ now h := length_appendHistory h now
  priming _ h := h
  resting _ h := h
  stopping _ h := h
  running _ _ _ h := h
  quiet {_ pu _} k h := (k.history pu).trans h
  lines _ _ _ _ h := h
  runLoss _ _ h := h
  dwell _ _ h := h
  recordWritten _ _ h := h
  reset _ _ keep h := by
    cases keep
    · simp [PumpUnit.afterReset]
    · exact h

/-! ### Records and ALERT (R190, R195) -/

theorem length_appendRecord {rs : List Record} (h : rs.length ≤ 48) (r : Record) :
    (appendRecord rs r).length ≤ 48 := by
  unfold appendRecord
  split
  · simp; omega
  · split
    · simp
    · rename_i x xs e
      have k : xs.length + 1 = rs.length - 1 := by simpa [e] using (List.length_tail (l := rs))
      simp; omega

/-- `q` keeps what `p` has of the two: ALERT follows flags and enables over 48 records at most, and the ring holds at
most 16. -/
structure AlertAndRingKept (p q : Part) : Prop where
  alert : p.AlertFollows → q.AlertFollows
  ring : p.estimator.ring.length ≤ 16 → q.estimator.ring.length ≤ 16

/-- A move that touches records, flags, enables and ring in no way. -/
theorem AlertAndRingKept.untouched {p q : Part} (he : q.events = p.events) (hc : q.config = p.config)
    (hr : q.estimator.ring = p.estimator.ring) : AlertAndRingKept p q :=
  ⟨fun h => by rw [Part.AlertFollows, he, hc]; exact h, fun h => hr ▸ h⟩

/-- Every change of flags or enables brings ALERT up to date, a record by its own append. -/
theorem alertAndRingKept_commandMoves : CommandMoves AlertAndRingKept where
  refl _ := .untouched rfl rfl rfl
  trans a b := ⟨fun h => b.alert (a.alert h), fun h => b.ring (a.ring h)⟩
  record _ _ _ _ := ⟨fun h => ⟨length_appendRecord h.1 _, rfl⟩, fun h => h⟩
  estimator _ _ _ k := ⟨fun h => h, k⟩
  events _ _ k := ⟨k, fun h => h⟩
  config _ _ _ _ k := ⟨k, fun h => h⟩
  blank p restart l := by
    refine ⟨fun h => ?_, fun _ => Nat.zero_le _⟩
    have events : (p.blank restart l).events = p.events.afterReset restart (loadedConfig p.store.image).enables := rfl
    have enables : (p.blank restart l).config.enables = (loadedConfig p.store.image).enables := rfl
    unfold Part.AlertFollows
    rw [events, enables]
    cases restart
    · simp [EventQueue.afterReset, alertOf]
    · exact ⟨h.1, rfl⟩
  arbiter _ _ _ _ := .untouched rfl rfl rfl
  roundDue _ _ := .untouched rfl rfl rfl
  enter _ _ _ := .untouched rfl rfl rfl
  starting _ _ := .untouched rfl rfl rfl
  priming _ _ _ := .untouched rfl rfl rfl
  resting _ _ := .untouched rfl rfl rfl
  stopping _ _ := .untouched rfl rfl rfl
  quiet _ _ _ _ := .untouched rfl rfl rfl
  runLine _ _ _ := .untouched rfl rfl rfl
  tripLine _ _ _ := .untouched rfl rfl rfl
  primedLine _ _ _ := .untouched rfl rfl rfl
  authority _ _ _ := .untouched rfl rfl rfl
  allAuto _ := .untouched rfl rfl rfl
  zeroLoads _ := .untouched rfl rfl rfl
  running _ _ := .untouched rfl rfl rfl
  runLoss _ _ _ _ := .untouched rfl rfl rfl
  dwell _ _ _ _ := .untouched rfl rfl rfl
  gauge _ _ := .untouched rfl rfl rfl
  curves _ _ _ := .untouched rfl rfl rfl
  dispatcher _ _ := .untouched rfl rfl rfl
  freeCount _ _ := .untouched rfl rfl rfl
  budget _ _ _ := .untouched rfl rfl rfl
  store _ _ := .untouched rfl rfl rfl
  sluice _ _ _ _ := .untouched rfl rfl rfl
  cleaner _ _ _ := .untouched rfl rfl rfl
  supervision _ _ _ := .untouched rfl rfl rfl
  planClock _ _ _ _ := .untouched rfl rfl rfl
  linkAside _ _ _ := .untouched rfl rfl rfl
  link _ _ := .untouched rfl rfl rfl

/-! ### The state right after reset -/

@[simp] theorem unit_reset (u : UnitNo) : State.reset.part.unit u = PumpUnit.atReset := by cases u <;> rfl

@[simp] theorem unitRecord_reset (u : UnitNo) : State.reset.part.unitRecord u = UnitRecord.default := by
  cases u <;> rfl

theorem booksFit_atReset : PumpUnit.atReset.booksFit := by simp [PumpUnit.booksFit, PumpUnit.atReset]

theorem arbiterConsistent_reset : State.reset.part.ArbiterConsistent := by
  have arbiter : State.reset.part.arbiter = ⟨[], none, none, 0, 0, .normal, none, false⟩ := rfl
  refine ⟨⟨fun u => ?_, ?_⟩, fun u => ?_, ⟨rfl, fun _ u => ?_⟩, ?_, rfl⟩
  · simp [arbiter, PumpUnit.atReset]
  · simp [arbiter]
  · simp [arbiter, PumpUnit.atReset, PumpUnit.inStart]
  · simp [PumpUnit.atReset, PumpUnit.inService]
  · simp [Part.ShedMatches, arbiter]

end Sys2Proof.Machine

open Sys2Proof Sys2Proof.Machine in
/-- Settles O2: the output lines of a unit are kept by every move of one unit. -/
theorem outputLinesFollowState : Obligations.OutputLinesFollowState := by
  intro s t h e
  rw [unitLinesFollow_iff] at h ⊢
  exact linesFollow_invariant.commandMoves.step s t e h

open Sys2Proof Sys2Proof.Machine in
/-- Settles O3: that a unit's timers fit its state is kept by every move of one unit. -/
theorem unitTimersFitStates : Obligations.UnitTimersFitStates := fun s t h e =>
  timersFit_invariant.commandMoves.step s t e h

open Sys2Proof Sys2Proof.Machine in
/-- Settles O6, from the moves that append to the records, to a start history and to the ring. -/
theorem alertFollowsAndListsBounded : Obligations.AlertFollowsAndListsBounded :=
  ⟨fun s t h e => (alertAndRingKept_commandMoves.step s t e).alert h,
    fun s t h e => ⟨history_invariant.commandMoves.step s t e h.1, (alertAndRingKept_commandMoves.step s t e).ring h.2⟩⟩

open Sys2Proof Sys2Proof.Machine in
/-- Settles O10: the invariants of the units by the one controller that all six are, the others by their blocks. -/
theorem invariantsHoldAtReset : Obligations.InvariantsHoldAtReset := by
  refine ⟨fun u => ?_, fun u => ?_, ⟨fun u => ?_, rfl⟩, arbiterConsistent_reset, ?_,
    ⟨fun u => ?_, ?_⟩, ?_, ?_, ?_, ?_, ?_⟩
  · rw [unit_reset, unitRecord_reset]
    exact ⟨rfl, rfl, rfl⟩
  · simp [PumpUnit.timersFit, PumpUnit.atReset]
  · rw [unit_reset]
    exact booksFit_atReset
  · exact ⟨by simp [State.reset, Part.reset], rfl⟩
  · simp [PumpUnit.atReset]
  · simp [State.reset, Part.reset]
  · simp [Part.MainsFollows, State.reset, Part.reset]
  · simp [Part.SluiceFollows, State.reset, Part.reset]
  · simp [Part.CleanerFollows, State.reset, Part.reset]
  · simp [Part.PlanOrdered, State.reset, Part.reset]
  · simp [Part.LinkFits, State.reset, Part.reset]
end

section
/-! The start sequence and the stop sequence of a unit (chapter 3): O19, O21. -/

namespace Sys2Proof.Machine

/-! ### A change of state (R30, R31) -/

/-- The lines and timers of a change of state, each by the states that it names. -/
theorem enter_eq (outlet : Outlet) (st : UnitState) (pu : PumpUnit) :
    pu.enter outlet st
      = { pu with
          state := st
          startOut := decide (st = .starting ∨ st = .running)
          primeOut := decide (st = .priming)
          airvalveOut :=
            decide (outlet.isSiphon = true ∧ (st = .priming ∨ st = .starting ∨ st = .running))
          primeTimer := if st = .priming then pu.primeTimer else none
          startTimer := if st = .starting then pu.startTimer else none
          stopTimer := if st = .stopping then pu.stopTimer else none
          minRunTimer := if st = .running then pu.minRunTimer else none
          restTimer := if st = .resting then pu.restTimer else none
          runLossTimer := if st = .running then pu.runLossTimer else none
          dwellTimer := if st = .running then pu.dwellTimer else none } := by
  cases st <;>
    simp [PumpUnit.enter, keepTimer, airvalveOf, UnitState.holdsSiphon, UnitState.drivesStart, UnitState.drivesPrime]

theorem stateChangeSetsLines : Rules.StateChangeSetsLines := fun p u st =>
  congrArg (p.modUnit u) (funext (enter_eq (p.unitRecord u).outlet st))

/-! ### The grant and the entry into STARTING (R32, R34) -/

theorem appendHistory_eq (h : List Word32) (now : Word32) :
    appendHistory h now = (if h.length < 12 then h else h.drop 1) ++ [now] := by
  unfold appendHistory
  by_cases full : h.length < 12
  · rw [if_pos full, if_neg (Nat.not_le.mpr full)]
  · rw [if_neg full, if_pos (Nat.not_lt.mp full), List.drop_one]

section
variable {p : Part} {u : UnitNo}

theorem takeGrant_of_unprimed (siphon : (p.unitRecord u).outlet.isSiphon = true) (h : (p.unit u).primed = false) :
    p.takeGrant u
      = ((p.modUnit u fun pu =>
          { pu with lastGrant := some p.accounting.uptime, minRunElapsed := false }).enterUnit u .priming).modUnit u
        fun pu => { pu with primeTimer := some ⟨(p.unitRecord u).primeTimeout, p.accounting.uptime⟩ } :=
  if_pos (by simp [siphon, h])

theorem takeGrant_of_primed (h : (p.unitRecord u).outlet.isSiphon = false ∨ (p.unit u).primed = true) :
    p.takeGrant u
      = (p.modUnit u fun pu =>
          { pu with lastGrant := some p.accounting.uptime, minRunElapsed := false }).enterStarting u :=
  if_neg (by rcases h with h | h <;> simp [h])

end

theorem grantTakenByUnit : Rules.GrantTakenByUnit := by
  intro p u r now q
  refine ⟨⟨rfl, rfl⟩, takeGrant_of_unprimed, takeGrant_of_primed, ?_⟩
  simp only [Part.enterStarting, appendHistory_eq]
  rfl

/-! ### Timers of 0 s in the grant (R30) -/

/-- A failed start of the unit that holds the slot frees it and starts the stagger, and moves nothing else of the
arbiter (R36, R100). -/
theorem arbiter_startFailed {p : Part} {u : UnitNo} (h : p.arbiter.slot = some u) (code : EventCode) (f : FaultCode) :
    (p.startFailed u code f).arbiter
      = { p.arbiter with slot := none, stagger := p.startTimer p.config.station.stagger } := by
  have freed : ((p.setReserved u 0).freeSlot u).arbiter
      = { p.arbiter with slot := none, stagger := p.startTimer p.config.station.stagger } := by
    rw [Part.freeSlot, if_pos (show (p.setReserved u 0).arbiter.slot = some u from h)]
    rfl
  unfold Part.startFailed
  simp only
  split <;> exact freed

theorem stagger_restOver (p : Part) (u : UnitNo) : (p.restOver u).arbiter.stagger = p.arbiter.stagger := by
  have joined : ∀ (q : Part) o, (q.joinQueue u o).arbiter.stagger = q.arbiter.stagger := fun _ _ => rfl
  unfold Part.restOver
  simp only
  split
  · split <;> simp [joined]
  · rfl

/-- A start that fails in its own grant fails as any start does: the stagger that the freed slot started lets no grant
check grant (R101, R102). -/
theorem failAtGrant_eq_failStart {p : Part} {u : UnitNo} (slot : p.arbiter.slot = some u)
    (normal : p.arbiter.shed = .normal) (code : EventCode) (f : FaultCode) :
    p.failAtGrant u code f = p.failStart u code f := by
  have arbiter := arbiter_startFailed slot code f
  have fell : (p.startFailed u code f).loadsFell = (p.startFailed u code f).sumLoads :=
    loadsFell_of_staggerRunning (by rw [arbiter]; rfl) (by rw [arbiter]; exact normal)
  have running : (((p.startFailed u code f).sumLoads).restOver u).arbiter.stagger.isSome = true := by
    rw [stagger_restOver]
    show (p.startFailed u code f).arbiter.stagger.isSome = true
    rw [arbiter]
    rfl
  have ends : ((p.startFailed u code f).sumLoads).endRest u = ((p.startFailed u code f).sumLoads).restOver u := by
    unfold Part.endRest Part.checkIf
    split
    · exact grantCheck_of_staggerRunning running
    · rfl
  rw [failStart_eq, fell, ends]
  unfold Part.failAtGrant
  simp only [Nat.pos_iff_ne_zero, ne_eq, ite_and, ite_not]

theorem startTimersOfZero : Rules.StartTimersOfZero := by
  intro p u slot normal r st
  refine ⟨fun h zero => ?_, fun h zero => ?_, fun h₁ h₂ => ?_⟩
  · rw [← failAtGrant_eq_failStart slot normal]
    simp only [Part.startIfZero, show (p.unit u).state = _ from h, show (p.unitRecord u).primeTimeout = 0 from zero,
      if_true]
  · rw [← failAtGrant_eq_failStart slot normal]
    simp only [Part.startIfZero, show (p.unit u).state = _ from h, show (p.unitRecord u).startTimeout = 0 from zero,
      if_true]
  · unfold Part.startIfZero
    split
    · exact if_neg fun zero => h₁ ⟨‹_›, zero⟩
    · exact if_neg fun zero => h₂ ⟨‹_›, zero⟩
    all_goals rfl

/-! ### PRIMED (R33), and RUN in STARTING (R35) -/

section
variable {p : Part} {u : UnitNo}

theorem primedOn_of_priming (h : (p.unit u).state = .priming) :
    p.primedOn u
      = if (p.unitRecord u).startTimeout = 0 then (p.enterStarting u).failStart u .startFail .startFail
        else p.enterStarting u := by
  simp [Part.primedOn, h]

theorem primedOn_elsewhere (h : (p.unit u).state ≠ .priming) : p.primedOn u = p := by
  unfold Part.primedOn
  split
  · exact absurd ‹_› h
  all_goals rfl

theorem runOn_of_starting (h : (p.unit u).state = .starting) : p.runOn u = p.startEnds u := by
  simp [Part.runOn, h]

end

theorem primedLineEndsPriming : Rules.PrimedLineEndsPriming := by
  intro u s p on
  have stays : (on.unit u).state = (p.unit u).state := by simp [on]
  have row (released : (p.unit u).primed = false) :
      exec (.primedAsserted u) s = .next (s.withPart (on.primedOn u).takeUnseenRound) :=
    next_withPart s (if_neg (ne_true_of_eq_false released))
  refine ⟨fun released h long => ?_, fun released h zero => ?_, fun released h => ?_, rfl⟩
  · rw [row released, primedOn_of_priming (stays.trans h)]
    exact next_withPart s (congrArg Part.takeUnseenRound (if_neg long))
  · rw [row released, primedOn_of_priming (stays.trans h)]
    exact next_withPart s (congrArg Part.takeUnseenRound (if_pos zero))
  · rw [row released, primedOn_elsewhere (stays ▸ h)]

theorem runEndsStart : Rules.RunEndsStart := by
  intro u s p r released h
  have stays : ((p.modUnit u fun pu => { pu with run := true }).unit u).state = .starting := by simpa using h
  have grant : ((p.modUnit u fun pu => { pu with run := true }).unit u).lastGrant = (p.unit u).lastGrant := by simp
  have elapsed : ∀ n : Nat, (n == 0) = decide (n = 0) := fun _ => rfl
  rw [exec_runAsserted s u released, runOn_of_starting stays]
  unfold Part.startEnds
  simp only [grant, elapsed]
  rfl

end Sys2Proof.Machine

open Sys2Proof Sys2Proof.Machine in
/-- Settles O19, from the change of state, the grant, its timers of 0 s, PRIMED, and RUN in STARTING. -/
theorem startSequence : Obligations.StartSequence :=
  ⟨stateChangeSetsLines, grantTakenByUnit, startTimersOfZero, primedLineEndsPriming, runEndsStart⟩

namespace Sys2Proof.Machine

/-! ### The end of a stop (R40) -/

/-- A stop that ends, before the next state: the load given up, UNIT_STOPPED recorded, the origin cleared (R40). -/
def Part.stopRecorded (p : Part) (u : UnitNo) : Part :=
  ((p.setReserved u 0).record .unitStopped (some u) ((p.unit u).stopOrigin.map fun o => (o.code : Int))).modUnit u
    fun pu => { pu with stopOrigin := none }

section
variable {p : Part} {u : UnitNo}

theorem stopEnded_of_notEnabled (h : (p.unitRecord u).enabled = false) :
    p.stopEnded u = (p.stopRecorded u).enterUnit u .offline :=
  if_pos (by simp [h])

theorem stopEnded_of_mains (e : (p.unitRecord u).enabled = true)
    (h : (p.unit u).stopOrigin = some .mains ∨ p.supervision.mains ≠ .ok) :
    p.stopEnded u = (p.stopRecorded u).enterUnit u .idle := by
  refine (if_neg (by simp [e])).trans (if_pos ?_)
  rcases h with h | h <;> simp [Part.mainsGood, h]

theorem stopEnded_of_rest (e : (p.unitRecord u).enabled = true) (h : (p.unit u).stopOrigin ≠ some .mains)
    (ok : p.supervision.mains = .ok) : p.stopEnded u = ((p.stopRecorded u).enterResting u).restIfZero u :=
  (if_neg (by simp [e])).trans (if_neg (by simp [Part.mainsGood, h, ok]))

end

/-- A rest that ends at once leaves no trace of its timer (R30). -/
theorem enterResting_enterIdle (q : Part) (u : UnitNo) :
    (q.enterResting u).enterUnit u .idle = (q.enterUnit u .resting).enterUnit u .idle := by
  simp [Part.enterResting, Part.enterUnit, modUnit_modUnit, PumpUnit.enter, keepTimer]

theorem stopEndsByTable : Rules.StopEndsByTable := by
  intro p u q
  have record : (q.enterResting u).unitRecord u = p.unitRecord u := rfl
  refine ⟨fun e => congrArg Part.loadsFell (stopEnded_of_notEnabled e),
    fun e h => congrArg Part.loadsFell (stopEnded_of_mains e h),
    fun e h ok rest => congrArg Part.loadsFell ((stopEnded_of_rest e h ok).trans ?_),
    fun e h ok rest noRetry => congrArg Part.loadsFell ((stopEnded_of_rest e h ok).trans ?_)⟩
  · show (q.enterResting u).restIfZero u = _
    rw [Part.restIfZero, record, if_neg rest]
    rfl
  · have still : ((q.enterResting u).unit u).retryPending = false := by
      simpa [Part.enterResting, PumpUnit.enter, q] using noRetry
    show (q.enterResting u).restIfZero u = _
    rw [Part.restIfZero, record, if_pos rest, endRest_of_noRetry still, enterResting_enterIdle]

/-! ### Stop orders (R38, R39) -/

theorem takesStop_iff (pu : PumpUnit) (o : StopOrigin) :
    pu.takesStop o = true ↔ pu.state = .priming ∨ pu.state = .starting
      ∨ (pu.state = .running ∧ (o ≠ .dispatch ∨ pu.minRunElapsed = true))
      ∨ ((pu.state = .idle ∨ pu.state = .offline) ∧ o = .reset) := by
  unfold PumpUnit.takesStop
  split <;> simp_all

/-- A stop order taken, before the next state: the slot freed, the load of a MAINS order given up, the origin set
(R39). -/
def Part.stopOrdered (p : Part) (u : UnitNo) (o : StopOrigin) : Part :=
  let freed := if (p.unit u).inStart then p.freeSlot u else p
  (if o = .mains then freed.setReserved u 0 else freed).modUnit u fun pu => { pu with stopOrigin := some o }

theorem takeStop_eq (p : Part) (u : UnitNo) (o : StopOrigin) :
    p.takeStop u o
      = if (p.unit u).run then (((p.stopOrdered u o).enterStopping u).stopIfZero u).loadsFell
        else (p.stopOrdered u o).endStop u := rfl

section
variable (p : Part) (u : UnitNo) (o : StopOrigin)

theorem stopOrigin_stopOrdered : ((p.stopOrdered u o).unit u).stopOrigin = some o := by simp [Part.stopOrdered]

/-- Taking an order leaves configuration and uptime alone. -/
theorem blocksOnly_stopOrdered : BlocksOnly p (p.stopOrdered u o) := by
  have U := BlocksOnly.unitMoves
  have freed : BlocksOnly p (if (p.unit u).inStart then p.freeSlot u else p) := by
    split
    · exact U.freeSlot p u
    · exact .refl p
  unfold Part.stopOrdered
  simp only
  split
  · exact (freed.trans (U.setReserved _ u 0)).trans (U.stopOrigin _ u _)
  · exact freed.trans (U.stopOrigin _ u _)

/-- STOPPING starts the stop timer with the timeout of the unit's record, now. -/
theorem enterStopping_stopOrdered :
    (p.stopOrdered u o).enterStopping u
      = ((p.stopOrdered u o).enterUnit u .stopping).modUnit u fun pu =>
        { pu with stopTimer := some ⟨(p.unitRecord u).stopTimeout, p.accounting.uptime⟩ } := by
  have frame := blocksOnly_stopOrdered p u o
  rw [Part.enterStopping, Part.startTimer, frame.uptime, frame.unitRecord]

end

/-- A trip out of STOPPING leaves no trace of the stop timer (R30). -/
theorem enterStopping_enterTripped (q : Part) (u : UnitNo) :
    (q.enterStopping u).enterUnit u .tripped = (q.enterUnit u .stopping).enterUnit u .tripped := by
  simp [Part.enterStopping, Part.enterUnit, modUnit_modUnit, PumpUnit.enter, keepTimer]

theorem stopOrdersTaken : Rules.StopOrdersTaken := by
  intro p u o st taken freed q
  have takes := takesStop_iff (p.unit u) o
  have ordered : p.stopOrdered u o = q := by
    simp only [Part.stopOrdered, inStart_iff]
    rfl
  have taking (h : taken) : p.stopOrder u o = p.takeStop u o := if_pos (takes.mpr h)
  have running (h : taken) (run : (p.unit u).run = true) :
      p.stopOrder u o = ((q.enterStopping u).stopIfZero u).loadsFell := by
    rw [taking h, takeStop_eq, if_pos run, ordered]
  have record : (q.enterStopping u).unitRecord u = p.unitRecord u := by
    rw [← ordered]
    exact (blocksOnly_stopOrdered p u o).unitRecord u
  refine ⟨fun h => if_neg fun c => h (takes.mp c), fun h run => ?_, fun h run long => ?_, fun h run zero => ?_⟩
  · rw [taking h, takeStop_eq, if_neg (ne_true_of_eq_false run), ordered]
  · rw [running h run, Part.stopIfZero, record, if_neg long, ← ordered, enterStopping_stopOrdered]
  · have origin : ((q.enterStopping u).unit u).stopOrigin = some o := by
      rw [← ordered]
      simp [Part.enterStopping, PumpUnit.enter, stopOrigin_stopOrdered]
    rw [running h run, Part.stopIfZero, record, if_pos zero, Part.stopFails, origin, Part.tripUnit,
      enterStopping_enterTripped]
    rfl

end Sys2Proof.Machine

open Sys2Proof Sys2Proof.Machine in
/-- Settles O21, from the stop orders and the end of a stop. -/
theorem stopSequence : Obligations.StopSequence := ⟨stopOrdersTaken, stopEndsByTable⟩
end

section
/-! The start history and ASK_UNIT (chapter 3): O25, O28. -/

namespace Sys2Proof.Machine

/-! ### A consultation (R51, R52) -/

section
variable {p : Part} {u : UnitNo} {own : Bool}

theorem underLimit_iff : p.underLimit u = true ↔ (p.historyNow u).length < (p.unitRecord u).maxStarts :=
  decide_eq_true_iff

theorem mayJoin_iff :
    p.mayJoin u own = true ↔ (p.unitRecord u).enabled = true
      ∧ ((p.unit u).state = .idle ∨ (own = true ∧ (p.unit u).state = .resting)) := by
  simp [Part.mayJoin]

/-- What a consultation makes of the unit: its history pruned, the mark of a reported limit as given. -/
def Part.historyPruned (p : Part) (u : UnitNo) (limit : Bool) : Part :=
  p.modUnit u fun pu => { pu with history := p.historyNow u, limitReported := limit }

theorem consult_of_underLimit (h : p.underLimit u = true) : p.consult u own = p.historyPruned u false := by
  rw [Part.consult, if_pos h, modUnit_modUnit]
  rfl

theorem consult_of_reported (h : p.underLimit u = false) (m : p.mayJoin u own = true)
    (r : (p.unit u).limitReported = false) :
    p.consult u own
      = (p.historyPruned u true).record .startLimit (some u)
        (secondsToAge p.accounting.uptime (p.historyNow u)) := by
  rw [Part.consult, if_neg (ne_true_of_eq_false h), if_pos (by simp [m, r]), modUnit_modUnit]
  rfl

theorem consult_of_silent (h : p.underLimit u = false) (q : p.mayJoin u own = false ∨ (p.unit u).limitReported = true) :
    p.consult u own = p.historyPruned u (p.unit u).limitReported := by
  rw [Part.consult, if_neg (ne_true_of_eq_false h), if_neg (by rcases q with q | q <;> simp [q])]
  rfl

end

end Sys2Proof.Machine

open Sys2Proof Sys2Proof.Machine in
/-- Settles O25: a consultation by the limit, the state and the mark that it meets. -/
theorem historyConsulted : Obligations.HistoryConsulted := by
  intro p u own now h r may pruned
  have count : p.historyNow u = h := rfl
  have joins : p.mayJoin u own = true ↔ may := mayJoin_iff
  have atLimit (full : r.maxStarts ≤ h.length) : p.underLimit u = false :=
    eq_false_of_ne_true fun under => Nat.not_lt.mpr full (underLimit_iff.mp under)
  refine ⟨?_, fun under => consult_of_underLimit (underLimit_iff.mpr under), fun full m clear oldest rest hh => ?_,
    fun full silent => consult_of_silent (atLimit full) (silent.imp_left fun n => eq_false_of_ne_true (mt joins.mp n))⟩
  · rw [Part.eligible, Bool.and_eq_true, joins, underLimit_iff, count]
  · rw [consult_of_reported (atLimit full) (joins.mpr m) clear, count, hh]
    rfl

namespace Sys2Proof.Machine

/-! ### The report of a unit (R187) -/

section
variable (p : Part) (u : UnitNo)

theorem length_unitBody : (p.unitBody u).length = 36 := rfl

/-- State, orders and history of the unit in its report. -/
theorem holds_unitController :
    Holds (p.unitBody u) 0 [codeByte u.number] ∧ Holds (p.unitBody u) 1 [codeByte (p.unit u).state.code]
      ∧ Holds (p.unitBody u) 2 [codeByte (p.unit u).authority.code]
      ∧ Holds (p.unitBody u) 3 [codeByte (((p.unit u).fault.map FaultCode.code).getD 0)]
      ∧ Holds (p.unitBody u) 4 [codeByte (p.unit u).retriesLeft]
      ∧ Holds (p.unitBody u) 5 [markByte (p.unit u).retryPending]
      ∧ Holds (p.unitBody u) 6 [markByte (p.unit u).minRunElapsed]
      ∧ Holds (p.unitBody u) 7 [codeByte (((p.unit u).stopOrigin.map StopOrigin.code).getD 0)]
      ∧ Holds (p.unitBody u) 8 (uptimeBytes (p.unit u).lastGrant)
      ∧ Holds (p.unitBody u) 13 [codeByte (p.unit u).history.length]
      ∧ Holds (p.unitBody u) 14 (uptimeBytes (p.unit u).history.head?)
      ∧ Holds (p.unitBody u) 19 (beBytes 2 (p.unit u).reserved)
      ∧ Holds (p.unitBody u) 21 [markByte (p.unit u).delivering] :=
  ⟨rfl, rfl, rfl, rfl, rfl, rfl, rfl, rfl, rfl, rfl, rfl, rfl, rfl⟩

/-- Lines and derived values of the unit in its report. -/
theorem holds_unitLines :
    Holds (p.unitBody u) 22
        [markByte (p.unit u).startOut, markByte (p.unit u).primeOut, markByte (p.unit u).airvalveOut]
      ∧ Holds (p.unitBody u) 25
        [markByte (p.unit u).run, markByte (p.unit u).trip, markByte (p.unit u).primed]
      ∧ Holds (p.unitBody u) 28 (beBytes 2 (p.curves.get u).head)
      ∧ Holds (p.unitBody u) 30 [codeByte (p.curves.get u).basis.code]
      ∧ Holds (p.unitBody u) 31 (beBytes 2 (p.curves.get u).flow)
      ∧ Holds (p.unitBody u) 33 (beBytes 2 (p.curves.get u).power)
      ∧ Holds (p.unitBody u) 35 [markByte (p.curves.get u).limited] :=
  ⟨rfl, rfl, rfl, rfl, rfl, rfl, rfl⟩

end

theorem forUnit_of_noUnit {n : Byte} (h : n.toNat = 0 ∨ 6 < n.toNat) (order : UnitNo → Part → Part × Response)
    (p : Part) : forUnit n order p = (p, .refusal .range) := by
  simp [forUnit, ofNumber_eq_none h]

end Sys2Proof.Machine

open Sys2Proof Sys2Proof.Machine in
/-- Settles O28: the answer is the report in a row, and no order reaches a unit that a byte does not number. -/
theorem askUnitAndUnitNumbers : Obligations.AskUnitAndUnitNumbers := by
  refine ⟨?_, ?_⟩
  · intro u tag n s hn receives q body pu d holds mark uptime
    have uptimes (off : Nat) (t : Option Word32) (k : Holds body off (uptimeBytes t)) : uptime off t := k.of_option
    obtain ⟨number, state, authority, fault, retries, retry, elapsed, origin, grant, count, oldest, load,
      delivering⟩ := holds_unitController q u
    obtain ⟨outputs, inputs, head, basis, flow, power, limited⟩ := holds_unitLines q u
    obtain ⟨faulty, faultless⟩ := fault.of_option
      (F := fun f : Option FaultCode => [codeByte ((f.map FaultCode.code).getD 0)])
    obtain ⟨stopping, notStopping⟩ := origin.of_option
      (F := fun o : Option StopOrigin => [codeByte ((o.map StopOrigin.code).getD 0)])
    rw [codeByte_of_number hn] at number
    exact ⟨next_withPart s (request_of_receives receives (forUnit_of_number hn orderAskUnit _)), length_unitBody q u,
      number, state, authority, faulty, faultless, retries, retry, elapsed, stopping, notStopping, uptimes 8 _ grant,
      count, uptimes 14 _ oldest, load, delivering, outputs, inputs, head, basis, flow, power, limited⟩
  · intro tag n cur s hn receives due refused
    have row (k : RequestKind) (order : UnitNo → Part → Part × Response) :
        request k tag (forUnit n order) s.part = s.part.arrived.refuses k tag .range :=
      request_of_receives receives (forUnit_of_noUnit hn order _)
    have notDue : (s.part.arrived.refuses .unitOrder tag .range).roundDue = false := (roundDue_arrived _).trans due
    have unseen (order : UnitNo → Part → Part × Response) :
        (request .unitOrder tag (forUnit n order) s.part).takeUnseenRound
          = s.part.arrived.refuses .unitOrder tag .range := by
      rw [row]
      exact takeUnseenRound_of_notDue notDue
    have seen : (request .unitOrder tag (forUnit n orderHandStart) s.part).takeDueRound cur
        = s.part.arrived.refuses .unitOrder tag .range := by
      rw [row]
      exact takeDueRound_of_notDue notDue cur
    exact ⟨next_withPart s (row _ _), next_withPart s (row _ _), next_withPart s (unseen _), next_withPart s seen,
      next_withPart s (unseen _), next_withPart s (row _ _), next_withPart s (row _ _)⟩
end

section
/-! Protections, the grant check, and the restart after a mains loss (chapters 5, 6 and 9): O33, O35, O47. -/

namespace Sys2Proof.Machine

/-! ### The stop-level protection and the hold (R88, R90) -/

section
variable {p : Part} {snap : Snapshot}

theorem dispatchAtSnapshot_of_low {level : Int} (h : snap.inner = some level)
    (low : level ≤ p.config.station.stopLevel) : p.dispatchAtSnapshot snap = p.stopLevelProtection level := by
  simp [Part.dispatchAtSnapshot, h, Option.filter, low]

theorem dispatchAtSnapshot_of_above (h : ∀ level, snap.inner = some level → p.config.station.stopLevel < level) :
    p.dispatchAtSnapshot snap
      = if p.dispatcher.hold && !snap.floatLow && p.levelRecovered snap then p.clearHold else p := by
  unfold Part.dispatchAtSnapshot
  cases hl : snap.inner with
  | none => rfl
  | some level => simp [Option.filter, Int.not_le.mpr (h level hl)]

theorem levelRecovered_iff :
    p.levelRecovered snap = true ↔ ∀ level, snap.inner = some level → p.config.station.stopLevel + 100 ≤ level := by
  unfold Part.levelRecovered
  cases snap.inner <;> simp

end

/-- The units of entries return to IDLE, each once, however many entries it has. -/
theorem idleUnits_eq (q : List QueueEntry) (p : Part) :
    idleUnits q p
      = { p with
          units := Six.ofFn fun u =>
            if q.any fun e => e.unit == u then PumpUnit.enter (p.unitRecord u).outlet .idle (p.unit u)
            else p.unit u } := by
  induction q generalizing p with
  | nil =>
    have same : (Six.ofFn fun u => p.unit u) = p.units := Six.ext_get fun u => Six.get_ofFn _ u
    simp [idleUnits, same]
  | cons e rest ih =>
    have units : ∀ u, (if rest.any fun x => x.unit == u then
          ((p.enterUnit e.unit .idle).unit u).enter (p.unitRecord u).outlet .idle
        else (p.enterUnit e.unit .idle).unit u)
        = if (e :: rest).any fun x => x.unit == u then (p.unit u).enter (p.unitRecord u).outlet .idle
          else p.unit u := by
      intro u
      rw [Part.unit_enterUnit]
      by_cases hu : u = e.unit
      · subst hu
        simp [PumpUnit.enter, keepTimer]
      · simp [hu, Ne.symm hu]
    rw [idleUnits, ih]
    exact congrArg (fun units => { p with units := Six.ofFn units }) (funext units)

theorem emptyQueue_eq (p : Part) :
    p.emptyQueue
      = { p with
          arbiter.queue := []
          units := Six.ofFn fun u =>
            if p.arbiter.queue.any fun e => e.unit == u then PumpUnit.enter (p.unitRecord u).outlet .idle (p.unit u)
            else p.unit u } := by
  rw [Part.emptyQueue, idleUnits_eq]
  rfl

theorem queue_emptyQueue (p : Part) : p.emptyQueue.arbiter.queue = [] := by rw [emptyQueue_eq]

theorem stopLevelAndHold : Rules.StopLevelAndHold := by
  intro p snap stop recovered
  refine ⟨fun level h low => ?_, fun h => ?_, rfl, queue_emptyQueue _, rfl⟩
  · rw [dispatchAtSnapshot_of_low h low]
    exact ⟨fun held => if_pos held, fun free => if_neg (ne_true_of_eq_false free)⟩
  · have clears : (p.dispatcher.hold && !snap.floatLow && p.levelRecovered snap) = true
        ↔ p.dispatcher.hold = true ∧ recovered := by
      simp only [Bool.and_eq_true, Bool.not_eq_true', levelRecovered_iff, and_assoc, recovered, stop]
    rw [dispatchAtSnapshot_of_above h]
    refine ⟨fun held r => if_pos (clears.mpr ⟨held, r⟩), fun kept => if_neg fun c => ?_⟩
    obtain ⟨held, r⟩ := clears.mp c
    rcases kept with free | notYet
    · exact absurd held (ne_true_of_eq_false free)
    · exact notYet r

/-! ### Stop orders and the emptied queue (R88, R98, R153) -/

theorem inService_iff (pu : PumpUnit) :
    pu.inService = true ↔ pu.state = .priming ∨ pu.state = .starting ∨ pu.state = .running := by
  unfold PumpUnit.inService
  split <;> simp_all

section
variable {p : Part} {u : UnitNo} (o : StopOrigin) (us : List UnitNo)

theorem stopAll_of_inService (h : (p.unit u).inService = true) :
    stopAll o (u :: us) p = stopAll o us (p.stopOrder u o) := by
  rw [stopAll, if_pos h]

theorem stopAll_of_notInService (h : ¬(p.unit u).inService = true) :
    stopAll o (u :: us) p = stopAll o us p := by
  rw [stopAll, if_neg h]

end

theorem stopOrdersAndEmptiedQueue : Rules.StopOrdersAndEmptiedQueue := by
  refine ⟨fun o u us p => ?_, emptyQueue_eq, fun _ _ _ => rfl⟩
  intro st stops
  have service := inService_iff (p.unit u)
  exact ⟨rfl, fun h => stopAll_of_inService o us (service.mpr h),
    fun h => stopAll_of_notInService o us (mt service.mp h)⟩

/-! ### FLOAT_HIGH (R91) -/

theorem floatHighCallsStation : Rules.FloatHighCallsStation := by
  intro p inner
  have reads : p.levelBelowTarget = inner.filter fun level => decide (level < p.plan.target) := rfl
  refine ⟨fun level h below => ?_, fun h => ?_⟩
  · have conflict : p.levelBelowTarget = some level := by simp [reads, h, Option.filter, below]
    simp only [Part.floatHighForwarded, conflict]
  · have none : p.levelBelowTarget = none := by
      cases hl : inner with
      | none => simp [reads, hl]
      | some level => simp [reads, hl, Option.filter, Int.not_lt.mpr (h level hl)]
    simp only [Part.floatHighForwarded, none]
    exact ⟨fun held => if_pos (by simp [held]), fun other => if_neg (by simp [other])⟩

end Sys2Proof.Machine

open Sys2Proof Sys2Proof.Machine in
/-- Settles O33, from the protection at a snapshot, its orders and emptied queue, and FLOAT_HIGH. -/
theorem protectionsAndFloatHigh : Obligations.ProtectionsAndFloatHigh :=
  ⟨stopLevelAndHold, stopOrdersAndEmptiedQueue, floatHighCallsStation⟩

namespace Sys2Proof.Machine

/-! ### The grant check (R102 to R105) -/

section
variable {p : Part}

theorem mainsGood_iff : p.mainsGood = true ↔ p.supervision.mains = .ok := by simp [Part.mainsGood]

/-- With the mains good the load reserved is the load asked for (R45). -/
theorem setReserved_of_mainsGood (good : p.mainsGood = true) (u : UnitNo) (kw : Nat) :
    p.setReserved u kw = p.modUnit u fun pu => { pu with reserved := kw } := by
  rw [Part.setReserved, if_pos good]

theorem stationReady_iff :
    p.stationReady = true ↔ p.arbiter.slot = none ∧ p.arbiter.stagger = none ∧ p.supervision.mains = .ok
      ∧ p.dispatcher.hold = false ∧ p.gauge.rack = .clear ∧ p.arbiter.shed = .normal := by
  simp [Part.stationReady, mainsGood_iff, and_assoc]

theorem headLimiting_iff :
    p.headLimiting = true ↔ ∃ snap : Snapshot, p.gauge.snapshot = some snap
      ∧ (snap.outerQuality = .ok ∨ snap.outerQuality = .held) := by
  unfold Part.headLimiting
  cases p.gauge.snapshot <;> simp [limitingInForce_iff]

theorem grantCheck_of_notReady (h : ¬p.stationReady = true) : p.grantCheck = p := if_neg h

section
variable {e : QueueEntry} {rest : List QueueEntry} (ready : p.stationReady = true)
  (queue : p.arbiter.queue = e :: rest)
include ready queue

/-- A head-limited head leaves the queue, and the check goes on (R103). -/
theorem grantCheck_of_limitedHead (h : (p.headLimiting && (p.curves.get e.unit).limited) = true) :
    p.grantCheck
      = (((p.setQueue rest).enterUnit e.unit .idle).record .headLimitRemoved (some e.unit)
          (some ((p.curves.get e.unit).head : Int))).grantCheck := by
  generalize hq : ((p.setQueue rest).enterUnit e.unit .idle).record .headLimitRemoved (some e.unit)
    (some ((p.curves.get e.unit).head : Int)) = q
  have goesOn : q.grantCheck = grantFrom rest q := by
    subst hq
    exact if_pos ready
  rw [goesOn, Part.grantCheck, if_pos ready, queue, grantFrom, if_pos h, hq]

theorem grantCheck_of_head (h : ¬(p.headLimiting && (p.curves.get e.unit).limited) = true) :
    p.grantCheck
      = if p.arbiter.committed + p.power e.unit ≤ p.arbiter.effective then (p.setQueue rest).grant e.unit
        else p := by
  rw [Part.grantCheck, if_pos ready, queue, grantFrom, if_neg h]

end
end

end Sys2Proof.Machine

open Sys2Proof Sys2Proof.Machine in
/-- Settles O35: the check by the station conditions, the head check and the load test of the head. -/
theorem grantCheckByRules : Obligations.GrantCheckByRules := by
  intro p ready limiting
  have conditions : p.stationReady = true ↔ ready := stationReady_iff
  refine ⟨fun h => ?_, fun e behind r queue => ?_⟩
  · rcases h with h | h
    · exact grantCheck_of_notReady (mt conditions.mp h)
    · exact grantCheck_of_emptyQueue h
  · intro d left held
    have headCheck : (p.headLimiting && d.limited) = true ↔ limiting ∧ d.limited = true := by
      rw [Bool.and_eq_true, headLimiting_iff]
    have stationReady := conditions.mpr r
    obtain ⟨_, _, mainsOk, _⟩ := r
    have granted : (p.setQueue behind).grant e.unit
        = (Part.takeGrant { held with arbiter.committed := held.reservedSum } e.unit).startIfZero e.unit := by
      rw [Part.grant, setReserved_of_mainsGood (p := { p.setQueue behind with arbiter.slot := some e.unit })
        (mainsGood_iff.mpr mainsOk)]
      rfl
    refine ⟨fun l d => grantCheck_of_limitedHead stationReady queue (headCheck.mpr ⟨l, d⟩), fun l above => ?_,
      fun l within => ?_⟩
    · exact (grantCheck_of_head stationReady queue (mt headCheck.mp l)).trans (if_neg (Nat.not_le.mpr above))
    · exact ((grantCheck_of_head stationReady queue (mt headCheck.mp l)).trans (if_pos within)).trans granted

namespace Sys2Proof.Machine

/-! ### The restart (R158) -/

theorem restart_of_effLow {p : Part} (h : p.mainsOkAgain.gauge.effLow = true) :
    p.restart = p.mainsOkAgain.restartBegun (-1) := if_pos h

theorem restart_of_notEffLow {p : Part} (h : p.mainsOkAgain.gauge.effLow = false) :
    p.restart = (restartWalk p.mainsOkAgain.supervision.restartSet 0 p.mainsOkAgain).1.restartBegun
      ((restartWalk p.mainsOkAgain.supervision.restartSet 0 p.mainsOkAgain).2 : Int) :=
  if_neg (ne_true_of_eq_false h)

end Sys2Proof.Machine

open Sys2Proof Sys2Proof.Machine in
/-- Settles O47: the rows of the return and of the restart, and the walk by the unit that it comes to. -/
theorem mainsReturnAndRestart : Obligations.MainsReturnAndRestart := by
  refine ⟨fun cur s lost => next_withPart s (if_neg (ne_true_of_eq_false lost)), fun cur s settling runs => ?_,
    fun u us n p => ⟨rfl, fun h => ?_, fun h e => ?_, fun h e => ?_⟩⟩
  · intro p q begun walked
    have ends : (s.part.supervision.mains == .settling && s.part.supervision.settle.isSome) = true := by
      rw [settling, runs]
      rfl
    have row : exec (.settleTimerExpiry cur) s = .next (s.withPart (p.restart.takeDueRound cur)) :=
      next_withPart s (if_pos ends)
    have again : p.mainsOkAgain = q := rfl
    clear_value q
    refine ⟨fun low => ?_, fun high => ?_⟩
    · rw [row, restart_of_effLow (again ▸ low), again]
      rfl
    · rw [row, restart_of_notEffLow (again ▸ high), again]
      rfl
  · rw [restartWalk, if_neg (by simpa using h)]
  · rw [restartWalk, if_pos (by simpa using h), if_pos e, Part.consultEnqueue, if_pos e]
  · rw [restartWalk, if_pos (by simpa using h), if_neg (ne_true_of_eq_false e), Part.consultEnqueue,
      if_neg (ne_true_of_eq_false e)]
end

section
/-! SUPPORT. The arbiter's books against the units (R45, R97, R100, R107, R108, R112): what O5 rests on. The invariant
is kept in two strengths: `Part.Tied`, in which committed load may differ from the sum of the reserved loads for a
while, and `Part.Agrees`, in which it is that sum. -/

namespace Sys2Proof.Machine

/-! ### What the books are made of -/

/-- In this state a unit has neither a queue entry nor the start slot, and is not in service. -/
def UnitState.standsApart : UnitState → Bool
  | .offline | .idle | .stopping | .resting | .tripped => true
  | .queued | .priming | .starting | .running => false

theorem PumpUnit.of_standsApart {pu : PumpUnit} (h : pu.state.standsApart = true) :
    pu.state ≠ .queued ∧ pu.inStart = false ∧ pu.inService = false := by
  unfold UnitState.standsApart at h
  split at h <;> simp_all [PumpUnit.inStart, PumpUnit.inService]

/-- What the arbiter's loads, shed and budget are, and the mains state that they depend on. -/
structure Accounts where
  committed : Nat
  effective : Nat
  shed : ShedState
  delayRuns : Bool
  budget : Nat
  mains : MainsState

/-- The accounts of a part; `budget` is the effective budget that the inputs as they stand give (R108). -/
def Part.accounts (p : Part) : Accounts :=
  ⟨p.arbiter.committed, p.arbiter.effective, p.arbiter.shed, p.arbiter.shedDelay.isSome, p.budgetNow,
    p.supervision.mains⟩

/-- Shed state, shed delay and effective budget are as they should be (R108, R112, R115, R116). -/
structure Accounts.Balanced (a : Accounts) : Prop where
  shedding : a.shed = .shedding ↔ a.effective < a.committed
  delay : a.delayRuns = true ↔ a.shed = .shedding
  effective : a.effective = a.budget

theorem Accounts.Balanced.of_normal {a : Accounts} (h : a.Balanced) (n : a.shed = .normal) :
    a.committed ≤ a.effective ∧ a.delayRuns = false := by
  have shed := h.shedding
  have delay := h.delay
  rw [n] at shed delay
  exact ⟨by simpa using shed, by simpa using delay⟩

section
variable (p : Part) (u : UnitNo)

@[simp] theorem accounts_freeSlot : (p.freeSlot u).accounts = p.accounts := by
  unfold Part.freeSlot
  split <;> rfl

@[simp] theorem accounts_consult (own : Bool) : (p.consult u own).accounts = p.accounts := by
  unfold Part.consult
  simp only
  split
  · rfl
  · split <;> rfl

end

/-- The sum of the reserved loads, unit by unit (R107). -/
theorem reservedSum_eq (p : Part) :
    p.reservedSum = (p.unit .u1).reserved + (p.unit .u2).reserved + (p.unit .u3).reserved + (p.unit .u4).reserved
      + (p.unit .u5).reserved + (p.unit .u6).reserved := rfl

theorem reservedSum_congr {p q : Part} (same : ∀ v, (q.unit v).reserved = (p.unit v).reserved) :
    q.reservedSum = p.reservedSum := by
  rw [reservedSum_eq, reservedSum_eq, same, same, same, same, same, same]

/-- The sum of the reserved loads after a change of one unit. -/
theorem reservedSum_changeUnit {p q : Part} {u : UnitNo} (others : ∀ v, v ≠ u → q.unit v = p.unit v) :
    q.reservedSum + (p.unit u).reserved = p.reservedSum + (q.unit u).reserved := by
  have kept (v : UnitNo) (h : v ≠ u) : (q.unit v).reserved = (p.unit v).reserved := by rw [others v h]
  have k1 := kept .u1
  have k2 := kept .u2
  have k3 := kept .u3
  have k4 := kept .u4
  have k5 := kept .u5
  have k6 := kept .u6
  rw [reservedSum_eq, reservedSum_eq]
  cases u <;> simp only [ne_eq, reduceCtorEq, not_false_eq_true, not_true_eq_false, true_imp_iff] at * <;> omega

/-! ### One unit changes -/

/-- Of the units only unit `u` differs, and the accounts are the same. -/
structure OnlyUnit (u : UnitNo) (p q : Part) : Prop where
  others : ∀ v, v ≠ u → q.unit v = p.unit v
  accounts : q.accounts = p.accounts

namespace OnlyUnit
variable {u : UnitNo} {p q r : Part}

theorem refl (p : Part) : OnlyUnit u p p := ⟨fun _ _ => rfl, rfl⟩

theorem trans (h : OnlyUnit u p q) (k : OnlyUnit u q r) : OnlyUnit u p r :=
  ⟨fun v hv => (k.others v hv).trans (h.others v hv), k.accounts.trans h.accounts⟩

theorem of_units (units : q.units = p.units) (accounts : q.accounts = p.accounts) : OnlyUnit u p q :=
  ⟨fun v _ => Part.unit_of_units units v, accounts⟩

theorem modUnit (h : OnlyUnit u p q) (f : PumpUnit → PumpUnit) : OnlyUnit u p (q.modUnit u f) :=
  h.trans ⟨fun v hv => by simp [Part.unit_modUnit, hv], rfl⟩

theorem enterUnit (h : OnlyUnit u p q) (st : UnitState) : OnlyUnit u p (q.enterUnit u st) := h.modUnit _

theorem setReserved (h : OnlyUnit u p q) (kw : Nat) : OnlyUnit u p (q.setReserved u kw) := h.modUnit _

theorem enterResting (h : OnlyUnit u p q) : OnlyUnit u p (q.enterResting u) := (h.enterUnit _).modUnit _

theorem enterStopping (h : OnlyUnit u p q) : OnlyUnit u p (q.enterStopping u) := (h.enterUnit _).modUnit _

theorem tripUnit (h : OnlyUnit u p q) (f : FaultCode) : OnlyUnit u p (q.tripUnit u f) := (h.enterUnit _).modUnit _

theorem record (h : OnlyUnit u p q) (c : EventCode) (w : Option UnitNo) (x : Option Int) :
    OnlyUnit u p (q.record c w x) := h.trans (.of_units rfl rfl)

theorem setQueue (h : OnlyUnit u p q) (l : List QueueEntry) : OnlyUnit u p (q.setQueue l) :=
  h.trans (.of_units rfl rfl)

theorem dropEntry (h : OnlyUnit u p q) : OnlyUnit u p (q.dropEntry u) := h.setQueue _

theorem setEnabled (h : OnlyUnit u p q) (w : UnitNo) (b : Bool) : OnlyUnit u p (q.setEnabled w b) :=
  h.trans (.of_units rfl rfl)

theorem leaveRestartSet (h : OnlyUnit u p q) (w : UnitNo) : OnlyUnit u p (q.leaveRestartSet w) :=
  h.trans (.of_units rfl rfl)

theorem freeSlot (h : OnlyUnit u p q) : OnlyUnit u p (q.freeSlot u) :=
  h.trans (.of_units (units_freeSlot q u) (accounts_freeSlot q u))

theorem consult (h : OnlyUnit u p q) (own : Bool) : OnlyUnit u p (q.consult u own) :=
  h.trans ⟨fun _ hv => unit_consult_of_ne q own hv, accounts_consult q u own⟩

end OnlyUnit

/-! ### Queue and slot when one unit changes -/

/-- The entries of unit `u` left out of the queue. -/
def withoutUnit (u : UnitNo) (q : List QueueEntry) : List QueueEntry := q.filter fun e => e.unit != u

theorem mem_units_withoutUnit {u v : UnitNo} {q : List QueueEntry} :
    v ∈ (withoutUnit u q).map (·.unit) ↔ v ≠ u ∧ v ∈ q.map (·.unit) := by
  simp only [withoutUnit, List.mem_map, List.mem_filter, bne_iff_ne]
  constructor
  · rintro ⟨e, ⟨he, ne⟩, rfl⟩
    exact ⟨ne, e, he, rfl⟩
  · rintro ⟨ne, e, he, rfl⟩
    exact ⟨e, ⟨he, ne⟩, rfl⟩

section
variable {p q : Part} {u : UnitNo} (others : ∀ v, v ≠ u → q.unit v = p.unit v)
include others

/-- The entry of a unit leaves, and the unit is not QUEUED. -/
theorem Part.QueueMatches.leaves (h : p.QueueMatches) (queue : q.arbiter.queue = withoutUnit u p.arbiter.queue)
    (state : (q.unit u).state ≠ .queued) : q.QueueMatches := by
  obtain ⟨iff, once⟩ := h
  refine ⟨fun v => ?_, ?_⟩
  · rw [queue, mem_units_withoutUnit]
    by_cases e : v = u
    · simpa [e] using state
    · rw [others v e, iff v]
      simp [e]
  · rw [queue]
    exact once.sublist (List.filter_sublist.map _)

/-- The queue stays, and the unit is QUEUED where it was. -/
theorem Part.QueueMatches.stays (h : p.QueueMatches) (queue : q.arbiter.queue = p.arbiter.queue)
    (state : (q.unit u).state = .queued ↔ (p.unit u).state = .queued) : q.QueueMatches := by
  obtain ⟨iff, once⟩ := h
  refine ⟨fun v => ?_, queue ▸ once⟩
  rw [queue, ← iff v]
  by_cases e : v = u
  · rw [e, state]
  · rw [others v e]

/-- An entry of a unit that was not QUEUED joins at the tail, and the unit is QUEUED. -/
theorem Part.QueueMatches.joins (h : p.QueueMatches) {e : QueueEntry} (eu : e.unit = u)
    (queue : q.arbiter.queue = p.arbiter.queue ++ [e]) (before : (p.unit u).state ≠ .queued)
    (state : (q.unit u).state = .queued) : q.QueueMatches := by
  obtain ⟨iff, once⟩ := h
  have fresh : u ∉ p.arbiter.queue.map (·.unit) := mt (iff u).mpr before
  refine ⟨fun v => ?_, ?_⟩
  · rw [queue, List.map_append, List.mem_append, List.map_singleton, List.mem_singleton, eu, ← iff v]
    by_cases e : v = u
    · simp [e, state]
    · simp [others v e, e]
  · rw [queue, List.map_append, List.map_singleton, eu, List.nodup_append]
    refine ⟨once, by simp, fun v hv w hw => ?_⟩
    rw [List.mem_singleton] at hw
    exact fun e => fresh (hw ▸ e ▸ hv)

/-- The slot of a unit that leaves its start sequence is free, where it held it. -/
theorem Part.SlotMatches.leaves (h : p.SlotMatches) (slot : q.arbiter.slot = (p.freeSlot u).arbiter.slot)
    (state : (q.unit u).inStart = false) : q.SlotMatches := by
  intro v
  rw [slot, Part.freeSlot]
  by_cases e : v = u
  · subst e
    split
    · simp [state]
    · rename_i hs
      simp [state, hs]
  · rw [others v e, h v]
    split
    · rename_i hs
      simp [hs, Ne.symm e]
    · rfl

/-- The slot stays, and the unit is in its start sequence where it was. -/
theorem Part.SlotMatches.stays (h : p.SlotMatches) (slot : q.arbiter.slot = p.arbiter.slot)
    (state : (q.unit u).inStart = (p.unit u).inStart) : q.SlotMatches := by
  intro v
  rw [slot, ← h v]
  by_cases e : v = u
  · rw [e, state]
  · rw [others v e]

/-- The slot that was free is taken. -/
theorem Part.SlotMatches.takes (h : p.SlotMatches) (free : p.arbiter.slot = none) (slot : q.arbiter.slot = some u)
    (state : (q.unit u).inStart = true) : q.SlotMatches := by
  intro v
  rw [slot]
  by_cases e : v = u
  · simp [e, state]
  · have no := h v
    rw [free] at no
    rw [others v e]
    simpa [Ne.symm e] using no

end

/-! ### The invariants -/

/-- Queue and slot agree with the units, and a QUEUED unit holds no load. `still` says whether, without mains, every
unit stands still without a load: the mains loss itself is the moment at which that does not hold yet (R153). -/
structure Part.Placed (still : Prop) (p : Part) : Prop where
  queue : p.QueueMatches
  unloaded : ∀ u, (p.unit u).state = .queued → (p.unit u).reserved = 0
  slot : p.SlotMatches
  stands : still → p.supervision.mains ≠ .ok → ∀ u, (p.unit u).reserved = 0 ∧ (p.unit u).inService = false

/-- Placed, and shed and budget are as the accounts want them. -/
structure Part.Tied (still : Prop) (p : Part) : Prop extends p.Placed still where
  balanced : p.accounts.Balanced

/-- Tied, and committed load is the sum of the reserved loads (R107). -/
structure Part.Agrees (still : Prop) (p : Part) : Prop extends p.Tied still where
  sum : p.arbiter.committed = p.reservedSum

variable {still : Prop}

theorem Part.Agrees.consistent {p : Part} (h : p.Agrees True) : p.ArbiterConsistent :=
  let b := h.balanced
  ⟨h.queue, h.slot, ⟨h.sum, h.stands trivial⟩, ⟨b.shedding, b.delay⟩, b.effective⟩

theorem Part.ArbiterConsistent.agrees {p : Part} (h : p.ArbiterConsistent) (books : p.BooksHold) : p.Agrees True := by
  obtain ⟨queue, slot, ⟨sum, stands⟩, ⟨shed, delay⟩, budget⟩ := h
  exact ⟨⟨⟨queue, fun u hs => ((books.fit u).holdsNothing (.inr (.inr hs))).reserved, slot, fun _ => stands⟩,
    ⟨shed, delay, budget⟩⟩, sum⟩

section
variable {p q : Part}

namespace Part.Placed

theorem congr (h : p.Placed still) (units : q.units = p.units) (queue : q.arbiter.queue = p.arbiter.queue)
    (slot : q.arbiter.slot = p.arbiter.slot) (mains : q.supervision.mains = p.supervision.mains) :
    q.Placed still := by
  have unit (v : UnitNo) : q.unit v = p.unit v := Part.unit_of_units units v
  refine ⟨h.queue.stays (u := .u1) (fun v _ => unit v) queue (by rw [unit]), fun v => ?_,
    h.slot.stays (u := .u1) (fun v _ => unit v) slot (by rw [unit]), fun s m v => ?_⟩
  · rw [unit]
    exact h.unloaded v
  · rw [unit]
    exact h.stands s (mains ▸ m) v

end Part.Placed

namespace Part.Tied

/-- Where unit `u` is not QUEUED, the queue holds no entry for it. -/
theorem noEntry {u : UnitNo} (h : p.Tied still) (state : (p.unit u).state ≠ .queued) :
    ∀ e ∈ p.arbiter.queue, e.unit ≠ u := by
  rintro e he rfl
  exact state ((h.queue.1 e.unit).mpr (List.mem_map_of_mem he))

theorem withoutUnit_of_notQueued {u : UnitNo} (h : p.Tied still) (state : (p.unit u).state ≠ .queued) :
    withoutUnit u p.arbiter.queue = p.arbiter.queue :=
  List.filter_eq_self.mpr fun e he => by simpa using h.noEntry state e he

/-- Where unit `u` is not in its start sequence, it holds no slot to free. -/
theorem freeSlot_of_notInStart {u : UnitNo} (h : p.Tied still) (state : (p.unit u).inStart = false) :
    p.freeSlot u = p := by
  have other : p.arbiter.slot ≠ some u := fun e => by simp [(h.slot u).mpr e] at state
  rw [Part.freeSlot, if_neg other]

theorem congr (h : p.Tied still) (units : q.units = p.units) (queue : q.arbiter.queue = p.arbiter.queue)
    (slot : q.arbiter.slot = p.arbiter.slot) (accounts : q.accounts = p.accounts) : q.Tied still :=
  ⟨h.toPlaced.congr units queue slot (congrArg Accounts.mains accounts), accounts ▸ h.balanced⟩

theorem changeUnit (h : p.Tied still) {u : UnitNo} (only : OnlyUnit u p q)
    (queue : q.QueueMatches) (slot : q.SlotMatches)
    (unloaded : (q.unit u).state = .queued → (q.unit u).reserved = 0)
    (stands : still → p.supervision.mains ≠ .ok → (q.unit u).reserved = 0 ∧ (q.unit u).inService = false) :
    q.Tied still := by
  have mains : q.supervision.mains = p.supervision.mains := congrArg Accounts.mains only.accounts
  refine ⟨⟨queue, fun v => ?_, slot, fun s m v => ?_⟩, only.accounts ▸ h.balanced⟩
  · by_cases e : v = u
    · exact e ▸ unloaded
    · rw [only.others v e]
      exact h.unloaded v
  · by_cases e : v = u
    · exact e ▸ stands s (mains ▸ m)
    · rw [only.others v e]
      exact h.stands s (mains ▸ m) v

/-- A unit comes to stand apart: its entry leaves the queue, its slot is free, and it reserves no more than before. -/
theorem leaves (h : p.Tied still) {u : UnitNo} (only : OnlyUnit u p q)
    (queue : q.arbiter.queue = withoutUnit u p.arbiter.queue) (slot : q.arbiter.slot = (p.freeSlot u).arbiter.slot)
    (state : (q.unit u).state.standsApart = true) (load : (q.unit u).reserved ≤ (p.unit u).reserved) :
    q.Tied still := by
  obtain ⟨notQueued, notInStart, notInService⟩ := PumpUnit.of_standsApart state
  refine h.changeUnit only (h.queue.leaves only.others queue notQueued) (h.slot.leaves only.others slot notInStart)
    (fun e => absurd e notQueued) fun s m => ⟨?_, notInService⟩
  exact Nat.eq_zero_of_le_zero ((h.stands s m u).1 ▸ load)

/-- The same of a unit that had neither entry nor slot to leave. -/
theorem leavesNothing (h : p.Tied still) {u : UnitNo} (only : OnlyUnit u p q)
    (queue : q.arbiter.queue = p.arbiter.queue)
    (slot : q.arbiter.slot = p.arbiter.slot) (before : (p.unit u).state ≠ .queued ∧ (p.unit u).inStart = false)
    (state : (q.unit u).state.standsApart = true) (load : (q.unit u).reserved ≤ (p.unit u).reserved) :
    q.Tied still :=
  h.leaves only (queue.trans (h.withoutUnit_of_notQueued before.1).symm)
    (by rw [slot, h.freeSlot_of_notInStart before.2]) state load

/-- A unit changes within its state: without mains it holds no load after. -/
theorem inState (h : p.Tied still) {u : UnitNo} (only : OnlyUnit u p q)
    (queue : q.arbiter.queue = p.arbiter.queue) (slot : q.arbiter.slot = p.arbiter.slot)
    (state : (q.unit u).state = (p.unit u).state)
    (load : (q.unit u).reserved ≤ (p.unit u).reserved
      ∨ ((p.unit u).state ≠ .queued ∧ (p.supervision.mains ≠ .ok → (q.unit u).reserved = 0))) : q.Tied still := by
  have inStart : (q.unit u).inStart = (p.unit u).inStart := by simp only [PumpUnit.inStart, state]
  have inService : (q.unit u).inService = (p.unit u).inService := by simp only [PumpUnit.inService, state]
  refine h.changeUnit only (h.queue.stays only.others queue (by rw [state]))
    (h.slot.stays only.others slot inStart) (fun e => ?_) fun s m => ?_
  · rw [state] at e
    rcases load with le | ⟨ne, -⟩
    · exact Nat.eq_zero_of_le_zero (h.unloaded u e ▸ le)
    · exact absurd e ne
  · rw [inService]
    refine ⟨?_, (h.stands s m u).2⟩
    rcases load with le | ⟨-, zero⟩
    · exact Nat.eq_zero_of_le_zero ((h.stands s m u).1 ▸ le)
    · exact zero m

end Part.Tied

namespace Part.Agrees

/-- Tied, with the accounts and the sum of loads of a part that agrees. -/
theorem of_tied (h : p.Agrees still) (t : q.Tied still) (accounts : q.accounts = p.accounts)
    (sum : q.reservedSum = p.reservedSum) : q.Agrees still :=
  ⟨t, by rw [sum, ← h.sum]; exact congrArg Accounts.committed accounts⟩

theorem congr (h : p.Agrees still) (units : q.units = p.units) (queue : q.arbiter.queue = p.arbiter.queue)
    (slot : q.arbiter.slot = p.arbiter.slot) (accounts : q.accounts = p.accounts) : q.Agrees still :=
  h.of_tied (h.toTied.congr units queue slot accounts) accounts (by rw [Part.reservedSum, units]; rfl)

/-- A change of one unit that leaves its load as it was. -/
theorem changeUnit (h : p.Agrees still) (t : q.Tied still) {u : UnitNo} (only : OnlyUnit u p q)
    (load : (q.unit u).reserved = (p.unit u).reserved) : q.Agrees still := by
  refine h.of_tied t only.accounts ?_
  have change := reservedSum_changeUnit only.others
  omega

/-- A unit comes to stand apart with the load it had. -/
theorem leaves (h : p.Agrees still) {u : UnitNo} (only : OnlyUnit u p q)
    (queue : q.arbiter.queue = withoutUnit u p.arbiter.queue) (slot : q.arbiter.slot = (p.freeSlot u).arbiter.slot)
    (state : (q.unit u).state.standsApart = true) (load : (q.unit u).reserved = (p.unit u).reserved) :
    q.Agrees still :=
  h.changeUnit (h.toTied.leaves only queue slot state load.le) only load

theorem leavesNothing (h : p.Agrees still) {u : UnitNo} (only : OnlyUnit u p q)
    (queue : q.arbiter.queue = p.arbiter.queue)
    (slot : q.arbiter.slot = p.arbiter.slot) (before : (p.unit u).state ≠ .queued ∧ (p.unit u).inStart = false)
    (state : (q.unit u).state.standsApart = true) (load : (q.unit u).reserved = (p.unit u).reserved) :
    q.Agrees still :=
  h.changeUnit (h.toTied.leavesNothing only queue slot before state load.le) only load

/-- A unit changes neither its state nor its load. -/
theorem inState (h : p.Agrees still) {u : UnitNo} (only : OnlyUnit u p q)
    (queue : q.arbiter.queue = p.arbiter.queue) (slot : q.arbiter.slot = p.arbiter.slot)
    (state : (q.unit u).state = (p.unit u).state) (load : (q.unit u).reserved = (p.unit u).reserved) :
    q.Agrees still :=
  h.changeUnit (h.toTied.inState only queue slot state (.inl load.le)) only load

theorem modUnit (h : p.Agrees still) (u : UnitNo) {f : PumpUnit → PumpUnit}
    (state : (f (p.unit u)).state = (p.unit u).state) (load : (f (p.unit u)).reserved = (p.unit u).reserved) :
    (p.modUnit u f).Agrees still :=
  h.inState (u := u) (.modUnit (.refl p) f) rfl rfl (by simpa using state) (by simpa using load)

theorem record (h : p.Agrees still) (c : EventCode) (w : Option UnitNo) (x : Option Int) :
    (p.record c w x).Agrees still := h.congr rfl rfl rfl rfl

end Part.Agrees
end

end Sys2Proof.Machine
end

section
/-! SUPPORT. The arbiter's books through rests, failed starts, grants and falls of committed load (R36, R37, R102 to
R107). -/

namespace Sys2Proof.Machine

variable {still : Prop} {p q : Part} {u : UnitNo}

/-! ### What the operations of one unit do to it -/

theorem slot_freeSlot (p : Part) (u : UnitNo) :
    (p.freeSlot u).arbiter.slot = if p.arbiter.slot = some u then none else p.arbiter.slot := by
  unfold Part.freeSlot
  split <;> rfl

theorem OnlyUnit.enterStarting (h : OnlyUnit u p q) : OnlyUnit u p (q.enterStarting u) :=
  ((h.enterUnit .starting).modUnit fun pu =>
    { pu with
      startTimer := q.startTimer (q.unitRecord u).startTimeout
      history := appendHistory pu.history q.accounting.uptime }).trans (.of_units rfl rfl)

theorem OnlyUnit.takeGrant (h : OnlyUnit u p q) : OnlyUnit u p (q.takeGrant u) := by
  unfold Part.takeGrant
  simp only
  split
  · exact ((h.modUnit _).enterUnit _).modUnit _
  · exact (h.modUnit _).enterStarting

/-- A grant puts its unit into its start sequence, with the load reserved for it (R32). -/
theorem takeGrant_unit (p : Part) (u : UnitNo) :
    ((p.takeGrant u).unit u).inStart = true ∧ ((p.takeGrant u).unit u).reserved = (p.unit u).reserved
      ∧ (p.takeGrant u).arbiter = p.arbiter := by
  unfold Part.takeGrant
  simp only
  split
  · simp [PumpUnit.enter, PumpUnit.inStart]
  · simp [Part.unit, Part.enterStarting, Part.modUnit, Part.enterUnit, PumpUnit.enter, PumpUnit.inStart]

theorem OnlyUnit.startFailed (h : OnlyUnit u p q) (c : EventCode) (f : FaultCode) :
    OnlyUnit u p (q.startFailed u c f) := by
  unfold Part.startFailed
  simp only
  split
  · exact (((((h.setReserved 0).freeSlot).record _ _ _).modUnit _).enterResting).record _ _ _
  · exact (((h.setReserved 0).freeSlot).record _ _ _).tripUnit _

/-- A failed start leaves its unit in RESTING or TRIPPED without a load, and its slot free (R36). -/
theorem startFailed_unit (p : Part) (u : UnitNo) (c : EventCode) (f : FaultCode) :
    (((p.startFailed u c f).unit u).state.standsApart = true ∧ ((p.startFailed u c f).unit u).reserved = 0)
      ∧ (p.startFailed u c f).arbiter.queue = p.arbiter.queue
      ∧ (p.startFailed u c f).arbiter.slot = (p.freeSlot u).arbiter.slot
      ∧ (0 < (p.unit u).retriesLeft → ((p.startFailed u c f).unit u).state = .resting) := by
  have slot (r : Part) (h : r.arbiter = ((p.setReserved u 0).freeSlot u).arbiter) :
      r.arbiter.slot = (p.freeSlot u).arbiter.slot := by
    rw [h, slot_freeSlot, slot_freeSlot]
    rfl
  unfold Part.startFailed
  simp only
  split
  · refine ⟨?_, by simp, slot _ rfl, fun _ => ?_⟩ <;>
      simp [Part.enterResting, PumpUnit.enter, UnitState.standsApart]
  · refine ⟨?_, by simp, slot _ rfl, fun hl => absurd hl ‹_›⟩
    simp [Part.tripUnit, PumpUnit.enter, UnitState.standsApart]

theorem PumpUnit.notQueued_of_inStart {pu : PumpUnit} (h : pu.inStart = true) : pu.state ≠ .queued := by
  rcases (inStart_iff pu).mp h with e | e <;> simp [e]

/-- The slot and the load of a grant taken by unit `u` (R105), with the mains good. -/
def Part.grantHeld (p : Part) (u : UnitNo) : Part :=
  { p.modUnit u fun pu => { pu with reserved := p.power u } with arbiter.slot := some u }

theorem reserved_grantHeld (p : Part) (u : UnitNo) : ((p.grantHeld u).unit u).reserved = p.power u :=
  congrArg PumpUnit.reserved (Part.unit_modUnit_self p u fun pu => { pu with reserved := p.power u })

theorem grant_of_mainsGood (good : p.mainsGood = true) (u : UnitNo) :
    p.grant u = ((p.grantHeld u).sumLoads.takeGrant u).startIfZero u := by
  rw [Part.grant, setReserved_of_mainsGood (p := { p with arbiter.slot := some u }) good]
  rfl

namespace Part.Tied

/-- A start that fails (R36), before the arbiter is told of the load. -/
theorem startFailed (h : p.Tied still) (start : (p.unit u).inStart = true) (c : EventCode) (f : FaultCode) :
    (p.startFailed u c f).Tied still := by
  obtain ⟨⟨apart, load⟩, queue, slot, -⟩ := startFailed_unit p u c f
  exact h.leaves (.startFailed (.refl p) c f)
    (queue.trans (h.withoutUnit_of_notQueued (PumpUnit.notQueued_of_inStart start)).symm) slot apart
    (by omega)

end Part.Tied

/-! ### The end of a rest (R37) -/

namespace Part.Agrees

theorem consult (h : p.Agrees still) (u : UnitNo) (own : Bool) : (p.consult u own).Agrees still := by
  have load : ((p.consult u own).unit u).reserved = (p.unit u).reserved := by
    obtain ⟨b, hb⟩ := units_consult p u own
    simp [Part.unit, hb]
  exact h.inState (.consult (.refl p) own) (by simp) (by simp) (by simp) load

/-- A unit without a load that is not in service joins the queue (R97). -/
theorem joinQueue (h : p.Agrees still) (o : QueueOrigin)
    (state : (p.unit u).state = .idle ∨ (p.unit u).state = .resting) (load : (p.unit u).reserved = 0) :
    (p.joinQueue u o).Agrees still := by
  have only : OnlyUnit u p (p.joinQueue u o) :=
    (OnlyUnit.enterUnit (.setQueue (.refl p) _) .queued).trans (.of_units rfl rfl)
  have self : (p.joinQueue u o).unit u = (p.unit u).enter (p.unitRecord u).outlet .queued :=
    Part.unit_modUnit_self _ _ _
  have before : (p.unit u).state ≠ .queued ∧ (p.unit u).inStart = false := by
    rcases state with e | e <;> simp [e, PumpUnit.inStart]
  refine h.changeUnit (h.toTied.changeUnit only (h.queue.joins only.others rfl rfl before.1 (by rw [self]; rfl))
    (h.slot.stays only.others rfl (by rw [self, before.2]; rfl)) (fun _ => ?_) fun _ _ => ⟨?_, ?_⟩) only ?_
  all_goals rw [self]
  · exact load
  · exact load
  · rfl
  · rfl

/-- A unit enters IDLE at the end of its rest. -/
theorem enterIdle (h : p.Agrees still) (state : (p.unit u).state = .resting) : (p.enterUnit u .idle).Agrees still :=
  h.leavesNothing (.enterUnit (.refl p) _) rfl rfl (by simp [state, PumpUnit.inStart])
    (by simp [PumpUnit.enter, UnitState.standsApart]) (by simp [PumpUnit.enter])

theorem restOver (h : p.Agrees still) (state : (p.unit u).state = .resting) (load : (p.unit u).reserved = 0) :
    (p.restOver u).Agrees still := by
  unfold Part.restOver
  split
  · simp only
    have asked : ((p.modUnit u fun pu => { pu with retryPending := false, restTimer := none }).consult u
        true).Agrees still := (h.modUnit u rfl rfl).consult u true
    have rests : (((p.modUnit u fun pu => { pu with retryPending := false, restTimer := none }).consult u
        true).unit u).state = .resting := by simp [state]
    have empty : (((p.modUnit u fun pu => { pu with retryPending := false, restTimer := none }).consult u
        true).unit u).reserved = 0 := by
      obtain ⟨b, hb⟩ := units_consult (p.modUnit u fun pu => { pu with retryPending := false, restTimer := none }) u
        true
      rw [Part.unit, hb]
      simpa using load
    split
    · exact asked.joinQueue .retry (.inr rests) empty
    · exact asked.enterIdle rests
  · exact h.enterIdle state

/-! ### A start that fails in its grant (R30, R36) -/

/-- With the shed state NORMAL the loads are within the budget, and stay so where they fall. -/
theorem sumLoads_of_normal (h : p.Agrees still) (only : OnlyUnit u p q) (t : q.Tied still)
    (load : (q.unit u).reserved ≤ (p.unit u).reserved) (normal : p.arbiter.shed = .normal) :
    q.sumLoads.Agrees still := by
  have change := reservedSum_changeUnit only.others
  have placed : q.sumLoads.Placed still := t.toPlaced.congr rfl rfl rfl rfl
  have same := only.accounts
  obtain ⟨within, stopped⟩ := h.balanced.of_normal normal
  have committed : q.arbiter.committed = p.arbiter.committed := congrArg Accounts.committed same
  have effective : q.arbiter.effective = p.arbiter.effective := congrArg Accounts.effective same
  have shed : q.arbiter.shed = .normal := (congrArg Accounts.shed same).trans normal
  have delay : q.arbiter.shedDelay.isSome = false := (congrArg Accounts.delayRuns same).trans stopped
  have sum : p.reservedSum ≤ p.arbiter.effective := h.sum ▸ within
  refine ⟨⟨placed, ⟨?_, ?_, t.balanced.effective⟩⟩, rfl⟩
  · show q.arbiter.shed = .shedding ↔ q.arbiter.effective < q.reservedSum
    rw [shed, effective]
    simp
    omega
  · show q.arbiter.shedDelay.isSome = true ↔ q.arbiter.shed = .shedding
    simp [delay, shed]

theorem failAtGrant (h : p.Agrees still) (start : (p.unit u).inStart = true) (normal : p.arbiter.shed = .normal)
    (c : EventCode) (f : FaultCode) : (p.failAtGrant u c f).Agrees still := by
  obtain ⟨⟨-, load⟩, -, -, rests⟩ := startFailed_unit p u c f
  have failed : (p.startFailed u c f).sumLoads.Agrees still :=
    h.sumLoads_of_normal (.startFailed (.refl p) c f) (h.toTied.startFailed start c f) (by omega) normal
  unfold Part.failAtGrant
  simp only
  split
  · rename_i hl
    exact failed.restOver (rests hl.1) load
  · exact failed

theorem startIfZero (h : p.Agrees still) (u : UnitNo) (normal : p.arbiter.shed = .normal) :
    (p.startIfZero u).Agrees still := by
  unfold Part.startIfZero
  split
  case h_1 hs =>
    split
    · exact h.failAtGrant (by simp [PumpUnit.inStart, hs]) normal _ _
    · exact h
  case h_2 hs =>
    split
    · exact h.failAtGrant (by simp [PumpUnit.inStart, hs]) normal _ _
    · exact h
  all_goals exact h

/-! ### The grant check (R102 to R105) -/

theorem withoutHead (h : p.Agrees still) {e : QueueEntry} {rest : List QueueEntry} (hq : p.arbiter.queue = e :: rest) :
    withoutUnit e.unit p.arbiter.queue = rest := by
  have once := h.queue.2
  rw [hq, List.map_cons, List.nodup_cons] at once
  rw [hq, withoutUnit, List.filter_cons_of_neg (by simp)]
  refine List.filter_eq_self.mpr fun x hx => ?_
  simpa using fun eq : x.unit = e.unit => once.1 (eq ▸ List.mem_map_of_mem hx)

/-- The head of the queue is granted where its load fits the budget (R104, R105). -/
theorem grant (h : p.Agrees still) {e : QueueEntry} {rest : List QueueEntry} (hq : p.arbiter.queue = e :: rest)
    (ready : p.stationReady = true) (fits : p.arbiter.committed + p.power e.unit ≤ p.arbiter.effective) :
    ((p.setQueue rest).grant e.unit).Agrees still := by
  obtain ⟨free, -, mains, -, -, normal⟩ := stationReady_iff.mp ready
  have waits : (p.unit e.unit).reserved = 0 := h.unloaded e.unit ((h.queue.1 e.unit).mpr (by simp [hq]))
  rw [grant_of_mainsGood (p := p.setQueue rest) (mainsGood_iff.mpr mains)]
  have holds : OnlyUnit e.unit p ((p.setQueue rest).grantHeld e.unit) :=
    (OnlyUnit.modUnit (.setQueue (.refl p) rest) fun pu => { pu with reserved := p.power e.unit }).trans
      (.of_units rfl rfl)
  have heldSum := reservedSum_changeUnit holds.others
  have heldLoad : (((p.setQueue rest).grantHeld e.unit).unit e.unit).reserved = p.power e.unit :=
    reserved_grantHeld _ _
  have heldAccounts := holds.accounts
  have heldArbiter : ((p.setQueue rest).grantHeld e.unit).arbiter
      = { p.arbiter with queue := rest, slot := some e.unit } := rfl
  generalize (p.setQueue rest).grantHeld e.unit = r at *
  obtain ⟨start, load, arbiter⟩ := takeGrant_unit r.sumLoads e.unit
  have takes : OnlyUnit e.unit r.sumLoads (r.sumLoads.takeGrant e.unit) := .takeGrant (.refl _)
  have takenSum := reservedSum_changeUnit takes.others
  have takenAccounts : (r.sumLoads.takeGrant e.unit).accounts = { p.accounts with committed := r.reservedSum } := by
    rw [takes.accounts, ← heldAccounts]
    rfl
  generalize r.sumLoads.takeGrant e.unit = g at *
  have others : ∀ v, v ≠ e.unit → g.unit v = p.unit v := fun v hv =>
    (takes.others v hv).trans (holds.others v hv)
  have notQueued := PumpUnit.notQueued_of_inStart start
  refine startIfZero ⟨⟨⟨?_, fun v hv => ?_, ?_, fun _ m => absurd ?_ m⟩, ?_⟩, ?_⟩ e.unit ?_
  · exact h.queue.leaves others (by rw [arbiter, h.withoutHead hq, Part.sumLoads, heldArbiter]) notQueued
  · have ne : v ≠ e.unit := fun eq => notQueued (eq ▸ hv)
    rw [others v ne] at hv ⊢
    exact h.unloaded v hv
  · exact h.slot.takes others free (by rw [arbiter, Part.sumLoads, heldArbiter]) start
  · exact (congrArg Accounts.mains takenAccounts).trans mains
  · rw [takenAccounts]
    refine ⟨?_, h.balanced.delay, h.balanced.effective⟩
    show p.arbiter.shed = .shedding ↔ p.arbiter.effective < r.reservedSum
    have sum := h.sum
    rw [normal]
    simp only [reduceCtorEq, false_iff, Nat.not_lt]
    omega
  · show g.arbiter.committed = g.reservedSum
    rw [arbiter]
    exact (Nat.add_right_cancel (load ▸ takenSum)).symm
  · rw [arbiter, Part.sumLoads, heldArbiter]
    exact normal

theorem grantFrom (l : List QueueEntry) : ∀ {p : Part}, p.Agrees still → p.stationReady = true → p.arbiter.queue = l →
    (Machine.grantFrom l p).Agrees still := by
  induction l with
  | nil => exact fun h _ _ => h
  | cons e rest ih =>
    intro p h ready hq
    unfold Machine.grantFrom
    split
    · have waits : (p.unit e.unit).state = .queued := (h.queue.1 e.unit).mpr (by simp [hq])
      have left : (((p.setQueue rest).enterUnit e.unit .idle).record .headLimitRemoved (some e.unit)
          (some ((p.curves.get e.unit).head : Int))).Agrees still := by
        refine record (h.leaves (u := e.unit) (.enterUnit (.setQueue (.refl p) rest) .idle) (h.withoutHead hq).symm ?_
          (by simp [PumpUnit.enter, UnitState.standsApart]) (by simp [PumpUnit.enter])) _ _ _
        rw [h.toTied.freeSlot_of_notInStart (by simp [PumpUnit.inStart, waits])]
        rfl
      exact ih left ready rfl
    · split
      · exact h.grant hq ready ‹_›
      · exact h

theorem grantCheck (h : p.Agrees still) : p.grantCheck.Agrees still := by
  unfold Part.grantCheck
  split
  · exact h.grantFrom _ ‹_› rfl
  · exact h

theorem checkIf (h : p.Agrees still) (b : Bool) : (p.checkIf b).Agrees still := by
  unfold Part.checkIf
  split
  · exact h.grantCheck
  · exact h

end Part.Agrees

/-! ### A fall of committed load, or a rise of the budget (R107, R108, R116) -/

/-- The accounts but for a shed that may be over. -/
structure Accounts.Eased (a : Accounts) : Prop where
  shedding : a.effective < a.committed → a.shed = .shedding
  delay : a.delayRuns = true ↔ a.shed = .shedding
  effective : a.effective = a.budget

theorem Part.Placed.shedOver (h : p.Placed still) (eased : p.accounts.Eased)
    (sum : p.arbiter.committed = p.reservedSum) : p.shedOver.Agrees still := by
  obtain ⟨shedding, delay, effective⟩ := eased
  unfold Part.shedOver
  split
  · rename_i hs
    simp only [Bool.and_eq_true, beq_iff_eq, decide_eq_true_eq] at hs
    refine ⟨⟨h.congr rfl rfl rfl rfl, ⟨?_, ?_, effective⟩⟩, sum⟩
    · show ShedState.normal = .shedding ↔ p.arbiter.effective < p.arbiter.committed
      simp [hs.2]
    · show false = true ↔ ShedState.normal = .shedding
      simp
  · rename_i hs
    refine ⟨⟨h, ⟨⟨fun e => ?_, shedding⟩, delay, effective⟩⟩, sum⟩
    have e : p.arbiter.shed = .shedding := e
    simp only [e, beq_self_eq_true, Bool.true_and, decide_eq_true_eq, Nat.not_le] at hs
    exact hs

/-- The arbiter takes a sum of loads that is at most the committed load (R107). -/
theorem Part.Tied.loadsFell (h : p.Tied still) (le : p.reservedSum ≤ p.arbiter.committed) :
    p.loadsFell.Agrees still := by
  obtain ⟨shedding, delay, effective⟩ := h.balanced
  unfold Part.loadsFell
  split
  · refine Part.Agrees.grantCheck (Part.Placed.shedOver (h.toPlaced.congr rfl rfl rfl rfl)
      ⟨fun lt => ?_, delay, effective⟩ rfl)
    have lt : p.arbiter.effective < p.reservedSum := lt
    exact shedding.mpr (Nat.lt_of_lt_of_le lt le)
  · have same : p.arbiter.committed = p.reservedSum := by omega
    have kept : p.sumLoads = p := by rw [Part.sumLoads, ← same]
    rw [kept]
    exact ⟨h, same⟩

/-- The arbiter is told of a unit that reserves no more than before. -/
theorem Part.Agrees.falls (h : p.Agrees still) (only : OnlyUnit u p q) (t : q.Tied still)
    (load : (q.unit u).reserved ≤ (p.unit u).reserved) : q.loadsFell.Agrees still := by
  have change := reservedSum_changeUnit only.others
  have committed : q.arbiter.committed = p.arbiter.committed := congrArg Accounts.committed only.accounts
  have sum := h.sum
  exact t.loadsFell (by omega)

end Sys2Proof.Machine
end

section
/-! SUPPORT. The arbiter's books through stops, failed starts, sheds and changes of loads and budget (R36 to R40, R107
to R116). -/

namespace Sys2Proof.Machine

variable {still : Prop} {p q r : Part} {u : UnitNo}

/-! ### A unit that comes to stand apart -/

/-- Unit `u` comes to stand apart, reserving no more than before; queue and slot are as they were. -/
structure ComesApart (u : UnitNo) (p q : Part) : Prop where
  only : OnlyUnit u p q
  queue : q.arbiter.queue = p.arbiter.queue
  slot : q.arbiter.slot = p.arbiter.slot
  state : (q.unit u).state.standsApart = true
  load : (q.unit u).reserved ≤ (p.unit u).reserved

namespace ComesApart

theorem trans (h : ComesApart u p q) (k : ComesApart u q r) : ComesApart u p r :=
  ⟨h.only.trans k.only, k.queue.trans h.queue, k.slot.trans h.slot, k.state, k.load.trans h.load⟩

theorem enterUnit (p : Part) (u : UnitNo) {st : UnitState} (apart : st.standsApart = true) :
    ComesApart u p (p.enterUnit u st) :=
  ⟨.enterUnit (.refl p) st, rfl, rfl, by simpa [PumpUnit.enter] using apart, by simp [PumpUnit.enter]⟩

theorem tripUnit (p : Part) (u : UnitNo) (f : FaultCode) : ComesApart u p (p.tripUnit u f) :=
  ⟨.tripUnit (.refl p) f, rfl, rfl, by simp [Part.tripUnit, PumpUnit.enter, UnitState.standsApart],
    by simp [Part.tripUnit, PumpUnit.enter]⟩

theorem enterResting (p : Part) (u : UnitNo) : ComesApart u p (p.enterResting u) :=
  ⟨.enterResting (.refl p), rfl, rfl, by simp [Part.enterResting, PumpUnit.enter, UnitState.standsApart],
    by simp [Part.enterResting, PumpUnit.enter]⟩

theorem enterStopping (p : Part) (u : UnitNo) : ComesApart u p (p.enterStopping u) :=
  ⟨.enterStopping (.refl p), rfl, rfl, by simp [Part.enterStopping, PumpUnit.enter, UnitState.standsApart],
    by simp [Part.enterStopping, PumpUnit.enter]⟩

/-- The stop timer's expiry trips the unit (R40). -/
theorem stopFails (p : Part) (u : UnitNo) : ComesApart u p (p.stopFails u) :=
  ⟨.modUnit (.record (.tripUnit (.refl p) _) _ _ _) _, rfl, rfl,
    by simp [Part.stopFails, Part.tripUnit, PumpUnit.enter, UnitState.standsApart],
    by simp [Part.stopFails, Part.tripUnit, PumpUnit.enter]⟩

theorem stopIfZero (h : ComesApart u p q) : ComesApart u p (q.stopIfZero u) := by
  unfold Part.stopIfZero
  split
  · exact h.trans (.stopFails q u)
  · exact h

/-- Without a pending retry a rest that is over leads to IDLE (R37). -/
theorem restIfZero (h : ComesApart u p q) (noRetry : (q.unit u).retryPending = false) :
    ComesApart u p (q.restIfZero u) := by
  unfold Part.restIfZero
  split
  · rw [endRest_of_noRetry noRetry]
    exact h.trans (.enterUnit q u rfl)
  · exact h

/-- The stop of a unit without a pending retry ends (R40). -/
theorem stopEnded (noRetry : (p.unit u).retryPending = false) : ComesApart u p (p.stopEnded u) := by
  have recorded : OnlyUnit u p (p.stopRecorded u) := .modUnit (.record (.setReserved (.refl p) 0) _ _ _) _
  have empty : ((p.stopRecorded u).unit u).reserved = 0 := by simp [Part.stopRecorded]
  have noRetry : ((p.stopRecorded u).unit u).retryPending = false := by simpa [Part.stopRecorded] using noRetry
  have after {r : Part} (h : ComesApart u (p.stopRecorded u) r) : ComesApart u p r :=
    ⟨recorded.trans h.only, h.queue, h.slot, h.state, h.load.trans (empty ▸ Nat.zero_le _)⟩
  refine after ?_
  unfold Part.stopEnded
  simp only
  split
  · exact enterUnit _ u rfl
  · split
    · exact enterUnit _ u rfl
    · exact (enterResting _ u).restIfZero (by simpa [Part.enterResting, PumpUnit.enter] using noRetry)

/-- What a unit comes to that had neither entry nor slot. -/
theorem tied (h : ComesApart u p q) (t : p.Tied still)
    (before : (p.unit u).state ≠ .queued ∧ (p.unit u).inStart = false) : q.Tied still :=
  t.leavesNothing h.only h.queue h.slot before h.state h.load

theorem agrees (h : ComesApart u p q) (a : p.Agrees still)
    (before : (p.unit u).state ≠ .queued ∧ (p.unit u).inStart = false)
    (load : (q.unit u).reserved = (p.unit u).reserved) : q.Agrees still :=
  a.leavesNothing h.only h.queue h.slot before h.state load

/-- The same with the arbiter told. -/
theorem falls (h : ComesApart u p q) (a : p.Agrees still)
    (before : (p.unit u).state ≠ .queued ∧ (p.unit u).inStart = false) : q.loadsFell.Agrees still :=
  a.falls h.only (h.tied a.toTied before) h.load

end ComesApart

/-! ### Stop orders (R38, R39) -/

theorem OnlyUnit.stopOrdered (p : Part) (u : UnitNo) (o : StopOrigin) : OnlyUnit u p (p.stopOrdered u o) := by
  unfold Part.stopOrdered
  simp only
  refine .modUnit ?_ _
  split <;> split
  · exact .setReserved (.freeSlot (.refl p)) 0
  · exact .setReserved (.refl p) 0
  · exact .freeSlot (.refl p)
  · exact .refl p

/-- A stop order that is taken moves neither the queue nor a pending retry, and no load rises (R39). -/
theorem stopOrdered_unit (p : Part) (u : UnitNo) (o : StopOrigin) :
    (p.stopOrdered u o).arbiter.queue = p.arbiter.queue
      ∧ ((p.stopOrdered u o).unit u).retryPending = (p.unit u).retryPending
      ∧ ((p.stopOrdered u o).unit u).reserved ≤ (p.unit u).reserved := by
  unfold Part.stopOrdered
  simp only
  split <;> split <;> simp [Part.setReserved]

theorem slot_stopOrdered (h : p.Tied still) (u : UnitNo) (o : StopOrigin) :
    (p.stopOrdered u o).arbiter.slot = (p.freeSlot u).arbiter.slot := by
  have freed : (if (p.unit u).inStart then p.freeSlot u else p) = p.freeSlot u := by
    split
    · rfl
    · rename_i hs
      exact (h.freeSlot_of_notInStart (by simpa using hs)).symm
  unfold Part.stopOrdered
  simp only [freed]
  split <;> rfl

/-- A unit that takes a stop order has no entry and no pending retry. -/
theorem noRetry_of_takesStop {pu : PumpUnit} (fit : pu.booksFit) {o : StopOrigin} (takes : pu.takesStop o = true) :
    pu.state ≠ .queued ∧ pu.retryPending = false := by
  obtain ⟨-, -, retry, -, -, -⟩ := fit
  rcases (takesStop_iff pu o).mp takes with e | e | ⟨e, -⟩ | ⟨e | e, -⟩ <;> simpa [e] using retry

namespace Part.Agrees

theorem takeStop (h : p.Agrees still) (notQueued : (p.unit u).state ≠ .queued)
    (noRetry : (p.unit u).retryPending = false) (o : StopOrigin) : (p.takeStop u o).Agrees still := by
  obtain ⟨queue, retry, load⟩ := stopOrdered_unit p u o
  have ordered := OnlyUnit.stopOrdered p u o
  have told {q : Part} (c : ComesApart u (p.stopOrdered u o) q) : q.loadsFell.Agrees still := by
    refine h.falls (ordered.trans c.only) (h.toTied.leaves (ordered.trans c.only) ?_ ?_ c.state (c.load.trans load))
      (c.load.trans load)
    · rw [c.queue, queue, h.withoutUnit_of_notQueued notQueued]
    · rw [c.slot, slot_stopOrdered h.toTied]
  rw [takeStop_eq]
  split
  · exact told (ComesApart.enterStopping _ u).stopIfZero
  · exact told (.stopEnded (retry.trans noRetry))

theorem stopOrder (h : p.Agrees still) (books : p.BooksHold) (u : UnitNo) (o : StopOrigin) :
    (p.stopOrder u o).Agrees still := by
  unfold Part.stopOrder
  split
  · obtain ⟨notQueued, noRetry⟩ := noRetry_of_takesStop (books.fit u) ‹_›
    exact h.takeStop notQueued noRetry o
  · exact h

theorem stopAll (o : StopOrigin) (us : List UnitNo) : ∀ {p : Part}, p.Agrees still → p.BooksHold →
    (Machine.stopAll o us p).Agrees still := by
  induction us with
  | nil => exact fun h _ => h
  | cons u us ih =>
    intro p h books
    unfold Machine.stopAll
    split
    · exact ih (h.stopOrder books u o) (books.stopOrder u o)
    · exact ih h books

theorem stopSome (h : p.Agrees still) (books : p.BooksHold) (u : Option UnitNo) (o : StopOrigin) :
    (p.stopSome u o).Agrees still := by
  unfold Part.stopSome
  split
  · exact h.stopOrder books _ o
  · exact h

/-! ### Rests and failed starts (R36, R37) -/

theorem endRest (h : p.Agrees still) (state : (p.unit u).state = .resting) (load : (p.unit u).reserved = 0) :
    (p.endRest u).Agrees still := (h.restOver state load).checkIf _

theorem restIfZero (h : p.Agrees still) (state : (p.unit u).state = .resting) (load : (p.unit u).reserved = 0) :
    (p.restIfZero u).Agrees still := by
  unfold Part.restIfZero
  split
  · exact h.endRest state load
  · exact h

theorem failStart (h : p.Agrees still) (start : (p.unit u).inStart = true) (c : EventCode) (f : FaultCode) :
    (p.failStart u c f).Agrees still := by
  obtain ⟨⟨apart, load⟩, -, -, rests⟩ := startFailed_unit p u c f
  have failed := h.toTied.startFailed start c f
  have told : (p.startFailed u c f).loadsFell.Agrees still :=
    h.falls (.startFailed (.refl p) c f) failed (by omega)
  have noEntry := failed.noEntry (PumpUnit.of_standsApart apart).1
  have kept := unit_loadsFell_of_noEntry noEntry
  unfold Part.failStart
  simp only
  split
  · exact told.restIfZero (by rw [kept, rests ‹_›]) (by rw [kept, load])
  · exact told

/-! ### The shed (R112 to R115) -/

theorem shedOne (h : p.Agrees still) (books : p.BooksHold) : p.shedOne.Agrees still := by
  unfold Part.shedOne
  split
  · exact (h.record _ _ _).stopOrder (books.record _ _ _) _ _
  · exact h

end Part.Agrees

/-- The accounts but for a shed that may have to begin. -/
structure Accounts.Strained (a : Accounts) : Prop where
  shedding : a.shed = .shedding → a.effective < a.committed
  delay : a.delayRuns = true ↔ a.shed = .shedding
  effective : a.effective = a.budget

theorem Part.Placed.shedTest (h : p.Placed still) (strained : p.accounts.Strained)
    (sum : p.arbiter.committed = p.reservedSum) (books : p.BooksHold) : p.shedTest.Agrees still := by
  obtain ⟨shedding, delay, effective⟩ := strained
  unfold Part.shedTest
  split
  · rename_i hs
    simp only [Bool.and_eq_true, beq_iff_eq, decide_eq_true_eq] at hs
    refine Part.Agrees.shedOne ⟨⟨h.congr rfl rfl rfl rfl, ⟨?_, ?_, effective⟩⟩, sum⟩ (books.congr rfl rfl)
    · show ShedState.shedding = .shedding ↔ p.arbiter.effective < p.arbiter.committed
      simp [hs.2]
    · show true = true ↔ ShedState.shedding = .shedding
      simp
  · rename_i hs
    refine ⟨⟨h, ⟨⟨shedding, fun lt => ?_⟩, delay, effective⟩⟩, sum⟩
    have lt : p.arbiter.effective < p.arbiter.committed := lt
    show p.arbiter.shed = .shedding
    cases e : p.arbiter.shed with
    | normal => simp [e, lt] at hs
    | shedding => rfl

/-! ### A move of committed load (R107) -/

theorem Part.Tied.loadsMoved (h : p.Tied still) (books : p.BooksHold) : p.loadsMoved.Agrees still := by
  obtain ⟨shedding, delay, effective⟩ := h.balanced
  unfold Part.loadsMoved
  split
  · rename_i rise
    refine Part.Placed.shedTest (h.toPlaced.congr rfl rfl rfl rfl) ⟨fun e => ?_, delay, effective⟩ rfl books.sumLoads
    have above : p.arbiter.effective < p.arbiter.committed := shedding.mp e
    exact above.trans rise
  · exact h.loadsFell (Nat.not_lt.mp ‹_›)

/-- A unit reserves a load that R45 lets it have, not being QUEUED. -/
theorem Part.Tied.setReserved (h : p.Tied still) (state : (p.unit u).state ≠ .queued) (kw : Nat) :
    (p.setReserved u kw).Tied still := by
  refine h.inState (.setReserved (.refl p) kw) rfl rfl (by simp) (.inr ⟨state, fun m => ?_⟩)
  have noMains : p.mainsGood ≠ true := mt mainsGood_iff.mp m
  simp [noMains]

theorem Part.Tied.reestimateUnits (us : List UnitNo) : ∀ {p : Part}, p.Tied still →
    (Machine.reestimateUnits us p).Tied still := by
  induction us with
  | nil => exact fun h => h
  | cons u us ih =>
    intro p h
    unfold Machine.reestimateUnits Part.reestimateUnit
    split
    · rename_i delivers
      exact ih (h.setReserved (fun e => by simp [PumpUnit.delivering, e] at delivers) _)
    · exact ih h

theorem Part.Agrees.reestimate (h : p.Agrees still) (books : p.BooksHold) : p.reestimate.Agrees still :=
  (h.toTied.reestimateUnits UnitNo.all).loadsMoved (books.reestimateUnits UnitNo.all)

/-! ### A change of the effective budget (R108, R110) -/

/-- Everything but the effective budget, which the inputs may have left behind. -/
structure Part.BudgetDue (still : Prop) (p : Part) : Prop where
  placed : p.Placed still
  sum : p.arbiter.committed = p.reservedSum
  shedding : p.arbiter.shed = .shedding ↔ p.arbiter.effective < p.arbiter.committed
  delay : p.arbiter.shedDelay.isSome = true ↔ p.arbiter.shed = .shedding

theorem Part.Agrees.budgetDue (h : p.Agrees still) (units : q.units = p.units)
    (arbiter : q.arbiter = { p.arbiter with curtail := q.arbiter.curtail })
    (mains : q.supervision.mains = p.supervision.mains) : q.BudgetDue still := by
  obtain ⟨shedding, delay, -⟩ := h.balanced
  have queue : q.arbiter.queue = p.arbiter.queue := by rw [arbiter]
  have slot : q.arbiter.slot = p.arbiter.slot := by rw [arbiter]
  refine ⟨h.toPlaced.congr units queue slot mains, ?_, ?_, ?_⟩ <;> rw [arbiter]
  · rw [Part.reservedSum, units]
    exact h.sum
  · exact shedding
  · exact delay

/-- The effective budget is `p.budgetNow` by now, and was `old` before: what the change brings about (R108, R116). -/
theorem Part.BudgetDue.budgetMoved (h : p.BudgetDue still) (units : q.units = p.units)
    (arbiter : q.arbiter = { p.arbiter with effective := q.budgetNow })
    (mains : q.supervision.mains = p.supervision.mains) (books : q.BooksHold) :
    (q.budgetMoved p.arbiter.effective).Agrees still := by
  obtain ⟨placed, sum, shedding, delay⟩ := h
  have queue : q.arbiter.queue = p.arbiter.queue := by rw [arbiter]
  have slot : q.arbiter.slot = p.arbiter.slot := by rw [arbiter]
  have committed : q.arbiter.committed = p.arbiter.committed := by rw [arbiter]
  have shed : q.arbiter.shed = p.arbiter.shed := by rw [arbiter]
  have shedDelay : q.arbiter.shedDelay = p.arbiter.shedDelay := by rw [arbiter]
  have effective : q.arbiter.effective = q.budgetNow := by rw [arbiter]
  have placed : q.Placed still := placed.congr units queue slot mains
  have sum : q.arbiter.committed = q.reservedSum := by
    rw [committed, sum, Part.reservedSum, Part.reservedSum, units]
  rw [← committed, ← shed] at shedding
  rw [← shed, ← shedDelay] at delay
  unfold Part.budgetMoved
  split
  · rename_i rise
    exact (placed.shedOver ⟨fun lt => shedding.mpr (rise.trans lt), delay, effective⟩ sum).grantCheck
  · split
    · rename_i fall
      exact placed.shedTest ⟨fun e => fall.trans (shedding.mp e), delay, effective⟩ sum books
    · have same : q.arbiter.effective = p.arbiter.effective := by omega
      rw [← same] at shedding
      exact ⟨⟨placed, ⟨shedding, delay, effective⟩⟩, sum⟩

theorem Part.BudgetDue.reformBudget (h : p.BudgetDue still) (books : p.BooksHold) : p.reformBudget.Agrees still :=
  h.budgetMoved rfl rfl rfl (books.congr rfl rfl)

theorem Part.Agrees.curtailMoved (h : p.Agrees still) (books : p.BooksHold) (b : Bool) (c : EventCode) :
    (p.curtailMoved b c).Agrees still := by
  have due : Part.BudgetDue still { p with arbiter.curtail := b } := h.budgetDue rfl rfl rfl
  exact due.budgetMoved rfl rfl rfl (books.congr rfl rfl)

end Sys2Proof.Machine
end

section
/-! SUPPORT. The arbiter's books through queue, dispatch and sampling round (R13, R15, R74 to R91, R97, R98). -/

namespace Sys2Proof.Machine

variable {still : Prop} {p q r : Part} {u : UnitNo}

/-! ### Beside the arbiter -/

/-- `q` has the units and the arbiter of `p`, its mains state, its override and its station record. -/
structure ArbiterAside (p q : Part) : Prop where
  units : q.units = p.units
  arbiter : q.arbiter = p.arbiter
  mains : q.supervision.mains = p.supervision.mains
  budget : q.plan.budget = p.plan.budget
  station : q.config.station = p.config.station

namespace ArbiterAside

theorem refl (p : Part) : ArbiterAside p p := by constructor <;> rfl

theorem trans (h : ArbiterAside p q) (k : ArbiterAside q r) : ArbiterAside p r :=
  ⟨k.units.trans h.units, k.arbiter.trans h.arbiter, k.mains.trans h.mains, k.budget.trans h.budget,
    k.station.trans h.station⟩

theorem accounts (h : ArbiterAside p q) : q.accounts = p.accounts := by
  simp only [Part.accounts, Part.budgetNow, Part.activeBudget, h.arbiter, h.mains, h.budget, h.station]

theorem of_gateAndCleaner (h : GateAndCleanerOnly p q) : ArbiterAside p q :=
  ⟨h.units, h.arbiter, by rw [h.blocks.supervision], by rw [h.blocks.plan], by rw [h.blocks.config]⟩

theorem record (p : Part) (c : EventCode) (w : Option UnitNo) (x : Option Int) : ArbiterAside p (p.record c w x) := by
  constructor <;> rfl

end ArbiterAside

namespace Part.Agrees

theorem aside (h : p.Agrees still) (a : ArbiterAside p q) : q.Agrees still :=
  h.congr a.units (by rw [a.arbiter]) (by rw [a.arbiter]) a.accounts

/-! ### Several units at once -/

/-- Units change that keep their loads, and neither enter nor leave service or the start sequence. -/
theorem changeUnits (h : p.Agrees still) (queue : q.QueueMatches)
    (load : ∀ v, (q.unit v).reserved = (p.unit v).reserved) (start : ∀ v, (q.unit v).inStart = (p.unit v).inStart)
    (service : ∀ v, (q.unit v).inService = (p.unit v).inService)
    (waits : ∀ v, (q.unit v).state = .queued → (p.unit v).state = .queued) (slot : q.arbiter.slot = p.arbiter.slot)
    (accounts : q.accounts = p.accounts) : q.Agrees still := by
  have mains : q.supervision.mains = p.supervision.mains := congrArg Accounts.mains accounts
  refine h.of_tied ⟨⟨queue, fun v hv => ?_, fun v => ?_, fun s m v => ?_⟩, accounts ▸ h.balanced⟩ accounts
    (reservedSum_congr load)
  · rw [load]
    exact h.unloaded v (waits v hv)
  · rw [start, slot]
    exact h.slot v
  · rw [load, service]
    exact h.stands s (mains ▸ m) v

/-! ### Entries that leave (R80, R83, R98) -/

/-- Entries leave the queue together, and their units enter IDLE. -/
theorem idleLeaving (h : p.Agrees still) (out : QueueEntry → Bool) :
    (Machine.idleUnits (p.arbiter.queue.filter out)
      (p.setQueue (p.arbiter.queue.filter fun e => !out e))).Agrees still := by
  obtain ⟨iff, once⟩ := h.queue
  rw [idleUnits_eq]
  generalize hq : ({ p.setQueue _ with units := _ } : Part) = q
  have unit (v : UnitNo) : q.unit v
      = if (p.arbiter.queue.filter out).any fun e => e.unit == v then (p.unit v).enter (p.unitRecord v).outlet .idle
        else p.unit v := by
    subst hq
    exact Six.get_ofFn _ v
  have queue : q.arbiter.queue = p.arbiter.queue.filter fun e => !out e := by subst hq; rfl
  have accounts : q.accounts = p.accounts := by subst hq; rfl
  have slot : q.arbiter.slot = p.arbiter.slot := by subst hq; rfl
  clear hq
  have leaves (v : UnitNo) : ((p.arbiter.queue.filter out).any fun e => e.unit == v) = true
      ↔ ∃ e ∈ p.arbiter.queue, out e = true ∧ e.unit = v := by simp
  have waited {v : UnitNo} (hv : ((p.arbiter.queue.filter out).any fun e => e.unit == v) = true) :
      (p.unit v).state = .queued := by
    obtain ⟨e, he, -, rfl⟩ := (leaves v).mp hv
    exact (iff _).mpr (List.mem_map_of_mem he)
  refine h.changeUnits ⟨fun v => ?_, queue ▸ once.sublist (List.filter_sublist.map _)⟩ (fun v => ?_) (fun v => ?_)
    (fun v => ?_) (fun v => ?_) slot accounts
  · have kept : v ∈ (p.arbiter.queue.filter fun e => !out e).map (·.unit)
        ↔ ∃ e ∈ p.arbiter.queue, out e = false ∧ e.unit = v := by simp [and_assoc]
    rw [queue, kept, unit]
    split
    · rename_i hv
      obtain ⟨e, he, gone, rfl⟩ := (leaves v).mp hv
      refine ⟨fun c => UnitState.noConfusion c, fun ⟨x, hx, stays, eq⟩ => ?_⟩
      rw [List.inj_on_of_nodup_map once hx he eq] at stays
      simp [gone] at stays
    · rename_i hv
      rw [leaves] at hv
      rw [iff v, List.mem_map]
      refine ⟨fun ⟨e, he, eq⟩ => ⟨e, he, ?_, eq⟩, fun ⟨e, he, _, eq⟩ => ⟨e, he, eq⟩⟩
      exact Bool.eq_false_iff.mpr fun o => hv ⟨e, he, o, eq⟩
  all_goals
    rw [unit]
    split
  · rfl
  · rfl
  · rename_i hv
    simp [PumpUnit.inStart, PumpUnit.enter, waited hv]
  · rfl
  · rename_i hv
    simp [PumpUnit.inService, PumpUnit.enter, waited hv]
  · rfl
  · exact fun _ => waited ‹_›
  · exact id

theorem emptyQueue (h : p.Agrees still) : p.emptyQueue.Agrees still := by
  simpa [Part.emptyQueue] using h.idleLeaving fun _ => true

theorem withdrawAll (h : p.Agrees still) : p.withdrawAll.Agrees still := (h.idleLeaving _).checkIf _

/-- The entry of a QUEUED unit leaves the queue, and the unit enters IDLE (R98). -/
theorem withdraw (h : p.Agrees still) (state : (p.unit u).state = .queued) :
    ((p.dropEntry u).enterUnit u .idle).Agrees still := by
  refine h.leaves (.enterUnit (.dropEntry (.refl p)) .idle) rfl ?_ (by simp [PumpUnit.enter, UnitState.standsApart])
    (by simp [PumpUnit.enter])
  rw [h.toTied.freeSlot_of_notInStart (by simp [PumpUnit.inStart, state])]
  rfl

theorem withdrawNewest (h : p.Agrees still) : p.withdrawNewest.Agrees still := by
  unfold Part.withdrawNewest
  split
  · rename_i e he
    have waits : e ∈ p.arbiter.queue := List.mem_of_mem_filter (List.mem_of_getLast? he)
    exact (h.withdraw ((h.queue.1 e.unit).mpr (List.mem_map_of_mem waits))).checkIf _
  · exact h

/-! ### Enqueues (R85, R97) -/

/-- An enqueue other than that of a retry takes an IDLE unit, which holds no load. -/
theorem enqueue (h : p.Agrees still) (books : p.BooksHold) (u : UnitNo) {o : QueueOrigin} (ho : o ≠ .retry) :
    (p.enqueue u o).Agrees still := by
  unfold Part.enqueue
  split
  · rename_i takes
    have idle : (p.unit u).state = .idle := by simpa [Part.takesEnqueue, ho] using takes
    exact (h.joinQueue o (.inl idle) ((books.fit u).holdsNothing (.inr (.inl idle))).reserved).grantCheck
  · exact h

theorem consultEnqueue (h : p.Agrees still) (books : p.BooksHold) (u : UnitNo) {o : QueueOrigin} (ho : o ≠ .retry) :
    (p.consultEnqueue u o).Agrees still := by
  unfold Part.consultEnqueue
  split
  · exact (h.consult u false).enqueue (books.consult u false) u ho
  · exact h.consult u false

theorem enqueueAll (us : List UnitNo) : ∀ {p : Part}, p.Agrees still → p.BooksHold →
    (Machine.enqueueAll us p).Agrees still := by
  induction us with
  | nil => exact fun h _ => h
  | cons u us ih =>
    intro p h books
    unfold Machine.enqueueAll
    split
    · exact ih (h.consultEnqueue books u (by simp)) (books.consultEnqueue u (by simp))
    · exact ih h books

theorem enqueueFirst (us : List UnitNo) : ∀ {p : Part}, p.Agrees still → p.BooksHold →
    (Machine.enqueueFirst us p).Agrees still := by
  induction us with
  | nil => exact fun h _ => h
  | cons u us ih =>
    intro p h books
    unfold Machine.enqueueFirst
    split
    · split
      · exact h.consultEnqueue books u (by simp)
      · exact ih (h.consult u false) (books.consult u false)
    · exact ih h books

/-! ### The dispatch evaluation (R74 to R84) -/

theorem dispatcher (h : p.Agrees still) (d : Dispatcher) : Part.Agrees still { p with dispatcher := d } :=
  h.congr rfl rfl rfl rfl

theorem demandStage (h : p.Agrees still) (books : p.BooksHold) (snap : Snapshot) (l : Int) :
    (p.demandStage snap l).Agrees still := by
  have kept : ∀ d, Part.BooksHold { p with dispatcher := d } := fun d => books.congr rfl rfl
  unfold Part.demandStage
  simp only
  split
  · exact (h.dispatcher _).enqueueFirst _ (kept _)
  · split
    · exact (h.dispatcher _).withdrawNewest
    · exact (h.dispatcher _).stopSome (kept _) _ _

theorem openStages (h : p.Agrees still) (books : p.BooksHold) (snap : Snapshot) : (p.openStages snap).Agrees still := by
  unfold Part.openStages
  split
  · exact h.stopSome books _ _
  · split
    · split
      · exact h.enqueueAll _ books
      · exact h
    · unfold Part.levelStages
      split
      · exact h.enqueueAll _ books
      · split
        · exact h.withdrawAll.stopSome books.withdrawAll _ _
        · exact h.demandStage books snap _

theorem stages (h : p.Agrees still) (books : p.BooksHold) : p.stages.Agrees still := by
  have estimated := h.reestimate books
  unfold Part.stages
  split
  · exact estimated
  · split
    · exact estimated.openStages books.reestimate _
    · exact estimated

/-! ### Protections and floats (R88 to R91) -/

theorem protect (h : p.Agrees still) (books : p.BooksHold) : p.protect.Agrees still :=
  ((h.stopAll .lowWater UnitNo.all books).emptyQueue).dispatcher _

theorem floatHighForwarded (h : p.Agrees still) (books : p.BooksHold) : p.floatHighForwarded.Agrees still := by
  unfold Part.floatHighForwarded
  split
  · exact h.record _ _ _
  · split
    · exact h
    · exact enqueueAll _ (h.dispatcher _) (books.congr rfl rfl)

/-! ### The round (R13) -/

theorem recordSome (h : p.Agrees still) (e : Option (EventCode × Option Int)) : (p.recordSome e).Agrees still := by
  unfold Part.recordSome
  split
  · exact h.record _ _ _
  · exact h

theorem dispatchAtSnapshot (h : p.Agrees still) (books : p.BooksHold) (snap : Snapshot) :
    (p.dispatchAtSnapshot snap).Agrees still := by
  unfold Part.dispatchAtSnapshot
  split
  · unfold Part.stopLevelProtection
    split
    · exact h.protect books
    · exact (h.protect books).record _ _ _
  · split
    · exact grantCheck (h.dispatcher _)
    · exact h

theorem dwellExpired (h : p.Agrees still) (books : p.BooksHold) (u : UnitNo) : (p.dwellExpired u).Agrees still :=
  ((h.modUnit u rfl rfl).record _ _ _).stopOrder ((books.modUnit u rfl (by exact books.fit u)).record _ _ _) u _

theorem unitAtSnapshot (h : p.Agrees still) (books : p.BooksHold) (snap : Snapshot) (u : UnitNo) :
    (p.unitAtSnapshot snap u).Agrees still := by
  have dwell : (p.modUnit u fun pu => { pu with dwellTimer := p.dwellAfter u snap }).Agrees still := h.modUnit u rfl rfl
  unfold Part.unitAtSnapshot
  split
  · simp only
    split
    · exact dwell.dwellExpired (books.modUnit u rfl (books.fit u)) u
    · exact dwell
  · exact h

theorem unitsAtSnapshot (snap : Snapshot) (us : List UnitNo) : ∀ {p : Part}, p.Agrees still → p.BooksHold →
    (Machine.unitsAtSnapshot snap us p).Agrees still := by
  induction us with
  | nil => exact fun h _ => h
  | cons u us ih => exact fun h books => ih (h.unitAtSnapshot books snap u) (books.unitAtSnapshot snap u)

theorem blocksAct (h : p.Agrees still) (books : p.BooksHold) (old : RackState) (snap : Snapshot) :
    (p.blocksAct old snap).Agrees still := by
  have formed : (p.formCurves snap).Agrees still := h.congr rfl rfl rfl rfl
  have formedBooks : (p.formCurves snap).BooksHold := books.congr rfl rfl
  have cleared : ((p.formCurves snap).rackCleared old snap.rack).Agrees still
      ∧ ((p.formCurves snap).rackCleared old snap.rack).BooksHold := by
    unfold Part.rackCleared
    split
    · exact ⟨formed.grantCheck, formedBooks.grantCheck⟩
    · exact ⟨formed, formedBooks⟩
  obtain ⟨agrees, kept⟩ := cleared
  have gate := GateAndCleanerOnly.sluiceAtSnapshot
    (((p.formCurves snap).rackCleared old snap.rack).dispatchAtSnapshot snap) snap
  have rake := gate.trans (.cleanerAtSnapshot _ snap)
  exact unitsAtSnapshot snap UnitNo.all ((agrees.dispatchAtSnapshot kept snap).aside (.of_gateAndCleaner rake))
    ((kept.dispatchAtSnapshot snap).aside rake.unitsAside)

theorem formSnapshot (h : p.Agrees still) : p.formSnapshot.Agrees still := by
  unfold Part.formSnapshot
  refine recordSome (recordSome (recordSome ?_ _) _) _
  exact h.congr rfl rfl rfl rfl

theorem decideMode (h : p.Agrees still) (snap : Snapshot) : (p.decideMode snap).Agrees still :=
  h.congr rfl rfl rfl rfl

theorem round (h : p.Agrees still) (books : p.BooksHold) (cur : Currents) : (p.round cur).Agrees still := by
  have sampled : (p.sampleChannels cur).Agrees still := h.congr rfl rfl rfl rfl
  have sampledBooks : (p.sampleChannels cur).BooksHold := books.congr rfl rfl
  unfold Part.round
  exact (sampled.formSnapshot.blocksAct sampledBooks.formSnapshot _ _).decideMode _

theorem immediateRound (h : p.Agrees still) (books : p.BooksHold) (cur : Currents) :
    (p.immediateRound cur).Agrees still := by
  unfold Part.immediateRound
  refine round ?_ ?_ cur
  · exact h.congr rfl rfl rfl rfl
  · exact books.congr rfl rfl

theorem takeDueRound (h : p.Agrees still) (books : p.BooksHold) (cur : Currents) :
    (p.takeDueRound cur).Agrees still := by
  unfold Part.takeDueRound
  split
  · exact h.immediateRound books cur
  · exact h

theorem takeUnseenRound (h : p.Agrees still) (books : p.BooksHold) : p.takeUnseenRound.Agrees still := by
  have counted : Part.Agrees still { p with freeCount := p.freeCount + 1 } := h.congr rfl rfl rfl rfl
  unfold Part.takeUnseenRound
  split
  · exact counted.immediateRound (books.congr rfl rfl) _
  · exact h

end Part.Agrees
end Sys2Proof.Machine
end

section
/-! SUPPORT. The arbiter's books through line events, timers, unit orders, plan, supervision, mains and record writes
(chapters 3, 8, 9, R109 to R111, R198). -/

namespace Sys2Proof.Machine

variable {still : Prop} {p q r : Part} {u : UnitNo}

/-! ### Entry and slot given up -/

/-- The slot that unit `u` gives up together with its entry. -/
theorem slot_dropEntry_freeSlot (p : Part) (u : UnitNo) :
    ((p.dropEntry u).freeSlot u).arbiter.slot = (p.freeSlot u).arbiter.slot := by
  rw [slot_freeSlot, slot_freeSlot]
  rfl

/-- A unit gives up entry and slot and trips with the load it has (R41, R42); `f` are its own books. -/
def Part.givenUp (p : Part) (u : UnitNo) (f : FaultCode) (g : PumpUnit → PumpUnit) (c : EventCode) (x : Option Int) :
    Part :=
  (((((p.dropEntry u).freeSlot u).tripUnit u f).modUnit u g).record c (some u) x)

theorem Part.Agrees.givenUp (h : p.Agrees still) (u : UnitNo) (f : FaultCode) {g : PumpUnit → PumpUnit} (c : EventCode)
    (x : Option Int) (state : ∀ pu, (g pu).state = pu.state) (load : ∀ pu, (g pu).reserved = pu.reserved) :
    (p.givenUp u f g c x).Agrees still := by
  refine h.leaves (u := u) (.record (.modUnit (.tripUnit (.freeSlot (.dropEntry (.refl p))) f) g) c (some u) x) ?_
    (slot_dropEntry_freeSlot p u) ?_ ?_
  · exact queue_freeSlot _ u
  · simp [Part.givenUp, state, Part.tripUnit, PumpUnit.enter, UnitState.standsApart]
  · simp [Part.givenUp, load, Part.tripUnit, PumpUnit.enter]

/-- Its state after. -/
theorem state_givenUp (p : Part) (u : UnitNo) (f : FaultCode) {g : PumpUnit → PumpUnit} (c : EventCode) (x : Option Int)
    (state : ∀ pu, (g pu).state = pu.state) : ((p.givenUp u f g c x).unit u).state = .tripped := by
  simp [Part.givenUp, state, Part.tripUnit, PumpUnit.enter]

theorem queue_givenUp (p : Part) (u : UnitNo) (f : FaultCode) (g : PumpUnit → PumpUnit) (c : EventCode)
    (x : Option Int) : (p.givenUp u f g c x).arbiter.queue = withoutUnit u p.arbiter.queue :=
  queue_freeSlot _ u

/-- The grant check of a removal leaves the removed unit alone. -/
theorem unit_checkIf_of_noEntry {b : Bool} (h : ∀ e ∈ p.arbiter.queue, e.unit ≠ u) :
    (p.checkIf b).unit u = p.unit u := by
  unfold Part.checkIf
  split
  · exact unit_grantCheck_of_noEntry h
  · rfl

namespace Part.Agrees

/-! ### RUN (R35, R40, R42, R43, R47) -/

theorem loadsFell (h : p.Agrees still) : p.loadsFell.Agrees still := h.toTied.loadsFell h.sum.ge

/-- A unit gives up its load, and the arbiter is told. -/
theorem giveUpLoad (h : p.Agrees still) (u : UnitNo) : (p.setReserved u 0).loadsFell.Agrees still := by
  have only : OnlyUnit u p (p.setReserved u 0) := .setReserved (.refl p) 0
  have load : ((p.setReserved u 0).unit u).reserved ≤ (p.unit u).reserved := by simp
  exact h.falls only (h.toTied.inState only rfl rfl (by simp) (.inl load)) load

theorem uncommandedRun (h : p.Agrees still) (books : p.BooksHold)
    (state : (p.unit u).state = .offline ∨ (p.unit u).state = .idle ∨ (p.unit u).state = .queued
      ∨ (p.unit u).state = .priming ∨ (p.unit u).state = .resting) :
    ((p.modUnit u fun pu => { pu with run := true }).uncommandedRun u).Agrees still := by
  have origin : (p.unit u).stopOrigin = none := by
    have iff := (books.fit u).2.1
    rcases state with e | e | e | e | e <;> simpa [e] using iff
  generalize hon : (p.modUnit u fun pu => { pu with run := true }) = on
  have agrees : on.Agrees still := hon ▸ h.modUnit u rfl rfl
  show ((((on.givenUp u .uncommandedRun (fun pu => { pu with retryPending := false }) .uncommandedRun
    (some ((on.unit u).state.code : Int))).checkIf (on.headIs u)).setReserved u (on.power u)).loadsMoved).Agrees still
  generalize some ((on.unit u).state.code : Int) = x
  have trips : (on.givenUp u .uncommandedRun (fun pu => { pu with retryPending := false }) .uncommandedRun
      x).BooksHold := by
    subst hon
    refine books.trips u (fun v hv => ?_) (queue_givenUp _ _ _ _ _ _) (state_givenUp _ _ _ _ _ fun _ => rfl) ?_ ?_ ?_ ?_
      (.inl ?_)
    · simp [Part.givenUp, Part.tripUnit, Part.unit_modUnit, Part.unit_enterUnit, hv]
    all_goals simp [Part.givenUp, Part.tripUnit, PumpUnit.enter, keepTimer, origin]
  have kept := agrees.givenUp u .uncommandedRun (g := fun pu => { pu with retryPending := false }) .uncommandedRun x
    (fun _ => rfl) fun _ => rfl
  have tripped : ((on.givenUp u .uncommandedRun (fun pu => { pu with retryPending := false }) .uncommandedRun
      x).unit u).state = .tripped := state_givenUp _ _ _ _ _ fun _ => rfl
  have runs : ((on.givenUp u .uncommandedRun (fun pu => { pu with retryPending := false }) .uncommandedRun
      x).unit u).run = true := by
    subst hon
    simp [Part.givenUp, Part.tripUnit, PumpUnit.enter]
  generalize on.givenUp u .uncommandedRun _ .uncommandedRun x = g at *
  have same : (g.checkIf (on.headIs u)).unit u = g.unit u :=
    unit_checkIf_of_noEntry (kept.toTied.noEntry (by simp [tripped]))
  exact ((kept.checkIf _).toTied.setReserved (by simp [same, tripped]) _).loadsMoved
    ((trips.checkIf _).reserve (by simp [same, PumpUnit.delivering, tripped, runs]) _)

/-- The start sequence ends in RUNNING (R35). -/
theorem startEnds (h : p.Agrees still) (state : (p.unit u).state = .starting) : (p.startEnds u).Agrees still := by
  have only : OnlyUnit u p (p.startEnds u) := .freeSlot (.record (.modUnit (.enterUnit (.refl p) .running) _) _ _ _)
  have after : ((p.startEnds u).unit u).state = .running ∧ ((p.startEnds u).unit u).reserved = (p.unit u).reserved := by
    simp [Part.startEnds, PumpUnit.enter]
  refine h.changeUnit (h.toTied.changeUnit only (h.queue.stays only.others ?_ (by simp [after, state]))
    (h.slot.leaves only.others ?_ (by simp [PumpUnit.inStart, after])) (fun e => by simp [after] at e) fun s m => ?_)
    only after.2
  · simp [Part.startEnds]
  · simp only [Part.startEnds, slot_freeSlot]
    rfl
  · have serves := (h.stands s m u).2
    simp [PumpUnit.inService, state] at serves

theorem runOn (h : p.Agrees still) (books : p.BooksHold) (u : UnitNo) :
    ((p.modUnit u fun pu => { pu with run := true }).runOn u).Agrees still := by
  obtain ⟨fault, origin, retry, -, load, loss⟩ := books.fit u
  have agrees : (p.modUnit u fun pu => { pu with run := true }).Agrees still := h.modUnit u rfl rfl
  have books' {f : PumpUnit → PumpUnit} (fit : (f (p.unit u)).booksFit)
      (same : (f (p.unit u)).state = (p.unit u).state) : (p.modUnit u f).BooksHold := books.modUnit u same fit
  have state : ((p.modUnit u fun pu => { pu with run := true }).unit u).state = (p.unit u).state := by simp
  unfold Part.runOn
  split <;> rename_i hs <;> rw [state] at hs
  · exact h.uncommandedRun books (.inl hs)
  · exact h.uncommandedRun books (.inr (.inl hs))
  · exact h.uncommandedRun books (.inr (.inr (.inl hs)))
  · exact h.uncommandedRun books (.inr (.inr (.inr (.inl hs))))
  · exact h.uncommandedRun books (.inr (.inr (.inr (.inr hs))))
  · exact agrees.startEnds (state.trans hs)
  · split
    · rw [modUnit_modUnit]
      refine Part.Tied.loadsMoved (Part.Tied.setReserved (Part.Agrees.toTied ?_) (by simp [hs]) _)
        (Part.BooksHold.reserve (books' ?_ rfl) (by simp [PumpUnit.delivering, hs]) _)
      · exact h.modUnit u rfl rfl
      · simp_all [PumpUnit.booksFit, PumpUnit.delivering]
    · exact agrees
  · exact agrees
  · refine (agrees.toTied.setReserved (by simp [hs]) _).loadsMoved
      (Part.BooksHold.reserve (books' ?_ rfl) (by simp [PumpUnit.delivering, hs]) _)
    simp_all [PumpUnit.booksFit, PumpUnit.delivering]

theorem runOff (h : p.Agrees still) (books : p.BooksHold) (u : UnitNo) :
    ((p.modUnit u fun pu => { pu with run := false }).runOff u).Agrees still := by
  have agrees : (p.modUnit u fun pu => { pu with run := false }).Agrees still := h.modUnit u rfl rfl
  have state : ((p.modUnit u fun pu => { pu with run := false }).unit u).state = (p.unit u).state := by simp
  have retry : ((p.modUnit u fun pu => { pu with run := false }).unit u).retryPending = (p.unit u).retryPending := by
    simp
  obtain ⟨-, -, rests, -, -, -⟩ := books.fit u
  generalize (p.modUnit u fun pu => { pu with run := false }) = off at *
  unfold Part.runOff
  split <;> rename_i hs
  · have timed : (off.modUnit u fun pu =>
        { pu with runLossTimer := off.startTimer (off.unitRecord u).runLossDelay }).Agrees still :=
      agrees.modUnit u rfl rfl
    have runs : ((off.modUnit u fun pu =>
        { pu with runLossTimer := off.startTimer (off.unitRecord u).runLossDelay }).unit u).state = .running := by
      simp [hs]
    generalize (off.modUnit u fun pu =>
      { pu with runLossTimer := off.startTimer (off.unitRecord u).runLossDelay }) = r at timed runs ⊢
    unfold Part.runLostIfZero
    split
    · have given : OnlyUnit u r (r.setReserved u 0) := .setReserved (.refl r) 0
      have trips : ComesApart u r ((r.setReserved u 0).runLost u) :=
        ⟨.record (.tripUnit given _) _ _ _, rfl, rfl,
          by simp [Part.runLost, Part.tripUnit, PumpUnit.enter, UnitState.standsApart],
          by simp [Part.runLost, Part.tripUnit, PumpUnit.enter]⟩
      exact trips.falls timed (by simp [runs, PumpUnit.inStart])
    · exact timed.giveUpLoad u
  · have noRetry : (off.unit u).retryPending = false := by
      rw [retry]
      rw [state] at hs
      simpa [hs] using rests
    exact (ComesApart.stopEnded noRetry).falls agrees (by simp [hs, PumpUnit.inStart])
  · exact agrees.giveUpLoad u
  all_goals exact agrees

/-! ### TRIP and PRIMED (R33, R41) -/

theorem motorTrip (h : p.Agrees still) (u : UnitNo) : (p.motorTrip u).Agrees still := by
  have given : (p.givenUp u .motorTrip (fun pu => { pu with retryPending := false, stopOrigin := none }) .motorTrip
      (some ((p.unit u).state.code : Int))).Agrees still :=
    h.givenUp u .motorTrip .motorTrip _ (fun _ => rfl) fun _ => rfl
  have checked := given.checkIf (p.headIs u)
  unfold Part.motorTrip
  simp only
  split
  · exact checked.loadsFell
  · exact checked.giveUpLoad u

theorem tripOn (h : p.Agrees still) (u : UnitNo) : (p.tripOn u).Agrees still := by
  unfold Part.tripOn
  split
  · exact h.record _ _ _
  · exact h.record _ _ _
  all_goals exact h.motorTrip u

theorem enterStarting (h : p.Agrees still) (state : (p.unit u).state = .priming) :
    (p.enterStarting u).Agrees still ∧ ((p.enterStarting u).unit u).inStart = true := by
  have only : OnlyUnit u p (p.enterStarting u) := .enterStarting (.refl p)
  have after : ((p.enterStarting u).unit u).state = .starting
      ∧ ((p.enterStarting u).unit u).reserved = (p.unit u).reserved := by
    simp [Part.unit, Part.enterStarting, Part.modUnit, Part.enterUnit, PumpUnit.enter]
  have start : ((p.enterStarting u).unit u).inStart = true := by simp [PumpUnit.inStart, after]
  refine ⟨h.changeUnit (h.toTied.changeUnit only (h.queue.stays only.others rfl (by simp [after, state]))
    (h.slot.stays only.others rfl (start.trans (by simp [PumpUnit.inStart, state]))) (fun e => by simp [after] at e)
    fun s m => ?_) only after.2, start⟩
  have serves := (h.stands s m u).2
  simp [PumpUnit.inService, state] at serves

theorem primedOn (h : p.Agrees still) (u : UnitNo) : (p.primedOn u).Agrees still := by
  unfold Part.primedOn
  split
  · obtain ⟨started, start⟩ := h.enterStarting ‹_›
    split
    · exact started.failStart start _ _
    · exact started
  all_goals exact h

/-! ### Timers (R37, R40, R43) -/

theorem stopFails (h : p.Agrees still) (state : (p.unit u).state = .stopping) : (p.stopFails u).Agrees still :=
  (ComesApart.stopFails p u).agrees h (by simp [state, PumpUnit.inStart])
    (by simp [Part.stopFails, Part.tripUnit, PumpUnit.enter])

theorem runLost (h : p.Agrees still) (state : (p.unit u).state = .running) : (p.runLost u).Agrees still :=
  ((ComesApart.tripUnit p u _).agrees h (by simp [state, PumpUnit.inStart])
    (by simp [Part.tripUnit, PumpUnit.enter])).record _ _ _

theorem restExpires (h : p.Agrees still) (books : p.BooksHold) (state : (p.unit u).state = .resting) :
    (p.endRest u).Agrees still := by
  obtain ⟨-, -, -, -, load, -⟩ := books.fit u
  exact h.endRest state (by simpa [state, PumpUnit.inStart, PumpUnit.delivering] using load)

/-! ### Unit orders (R54 to R56) -/

theorem setAuthority (h : p.Agrees still) (u : UnitNo) (a : Authority) : (p.setAuthority u a).Agrees still :=
  h.modUnit u rfl rfl

theorem orderEnable (h : p.Agrees still) (u : UnitNo) : (Machine.orderEnable u p).1.Agrees still := by
  unfold Machine.orderEnable
  split
  · rename_i hs
    refine h.leavesNothing (u := u) (.enterUnit (.modUnit (.setEnabled (.refl p) u true) _) .idle) rfl rfl
      (by simp [hs, PumpUnit.inStart]) ?_ ?_
    · simp [taken, PumpUnit.enter, UnitState.standsApart]
    · simp [taken, PumpUnit.enter]
  all_goals exact h

theorem disabled (h : p.Agrees still) (takes : (p.unit u).takesDisable = true) : (p.disabled u).Agrees still := by
  have notInStart : (p.unit u).inStart = false := by
    unfold PumpUnit.takesDisable at takes
    split at takes <;> simp_all [PumpUnit.inStart]
  have only : OnlyUnit u p (((((p.dropEntry u).modUnit u fun pu =>
      { pu with
        retryPending := false
        fault := none
        stopOrigin := none }).setEnabled u false).enterUnit u .offline).leaveRestartSet u) :=
    .leaveRestartSet (.enterUnit (.setEnabled (.modUnit (.dropEntry (.refl p)) _) u false) .offline) u
  unfold Part.disabled
  refine checkIf (h.leaves only rfl ?_ ?_ ?_) _
  · rw [h.toTied.freeSlot_of_notInStart notInStart]
    rfl
  · simp [PumpUnit.enter, UnitState.standsApart]
  · simp [PumpUnit.enter]

theorem orderDisable (h : p.Agrees still) (u : UnitNo) : (Machine.orderDisable u p).1.Agrees still := by
  unfold Machine.orderDisable
  split
  · exact h.disabled ‹_›
  · exact h

theorem orderHandStart (h : p.Agrees still) (books : p.BooksHold) (u : UnitNo) :
    (Machine.orderHandStart u p).1.Agrees still := by
  unfold Machine.orderHandStart
  split
  · exact h
  · split
    · exact ((h.consult u false).setAuthority u .hand).enqueue ((books.consult u false).setAuthority u .hand) u
        (by simp)
    · exact h.consult u false

theorem handStopped (h : p.Agrees still) (books : p.BooksHold) (u : UnitNo) : (p.handStopped u).Agrees still := by
  unfold Part.handStopped
  split
  · exact (h.withdraw ‹_›).checkIf _
  · exact h.stopOrder books u _
  · exact h.stopOrder books u _
  · exact h.stopOrder books u _
  · exact h.modUnit u rfl rfl
  all_goals exact h

theorem orderHandStop (h : p.Agrees still) (books : p.BooksHold) (u : UnitNo) :
    (Machine.orderHandStop u p).1.Agrees still := by
  have hand : ((p.setAuthority u .hand).leaveRestartSet u).Agrees still :=
    (h.setAuthority u .hand).congr rfl rfl rfl rfl
  exact hand.handStopped ((books.setAuthority u .hand).congr rfl rfl) u

theorem orderClear (h : p.Agrees still) (books : p.BooksHold) (u : UnitNo) :
    (Machine.orderClear u p).1.Agrees still := by
  unfold Machine.orderClear
  split
  · rename_i takes
    simp only [PumpUnit.takesClear, Bool.and_eq_true, beq_iff_eq, Bool.not_eq_true'] at takes
    obtain ⟨⟨state, -⟩, run⟩ := takes
    obtain ⟨-, -, -, -, load, -⟩ := books.fit u
    have empty : (p.unit u).reserved = 0 := by simpa [state, run, PumpUnit.inStart, PumpUnit.delivering] using load
    show (p.cleared u).Agrees still
    unfold Part.cleared
    simp only
    generalize hr : (Part.record (Part.modUnit p u _) .unitCleared _ _) = r
    have reported : r.Agrees still := by
      subst hr
      exact (h.modUnit u rfl rfl).record _ _ _
    have after : (r.unit u).state = .tripped ∧ (r.unit u).reserved = 0 := by
      subst hr
      simp [state, empty]
    have before : (r.unit u).state ≠ .queued ∧ (r.unit u).inStart = false := by simp [after, PumpUnit.inStart]
    split
    · exact ((ComesApart.enterResting r u).agrees reported before
        (by simp [Part.enterResting, PumpUnit.enter])).restIfZero
        (by simp [Part.enterResting, PumpUnit.enter]) (by simp [Part.enterResting, PumpUnit.enter, after])
    · exact (ComesApart.enterUnit r u rfl).agrees reported before (by simp [PumpUnit.enter])
  · exact h

end Part.Agrees
end Sys2Proof.Machine
end

section
/-! SUPPORT. The arbiter's books through plan, supervision and mains, record writes, requests and resets (chapters 8 to
13). -/

namespace Sys2Proof.Machine

variable {still still' : Prop} {p q r : Part} {u : UnitNo}

/-! ### Services that leave the arbiter aside -/

namespace ArbiterAside

theorem acceptTelegram (p : Part) : ArbiterAside p p.acceptTelegram := by
  have resumed : ArbiterAside p p.resumeSupervision := by
    unfold Part.resumeSupervision
    split <;> constructor <;> rfl
  exact resumed.trans (by constructor <;> rfl)

theorem arrived (p : Part) : ArbiterAside p p.arrived := by
  have completed : ArbiterAside p (p.modLink Link.completed) := by constructor <;> rfl
  exact completed.trans (acceptTelegram _)

theorem sluiceOrder (a : Byte) (p : Part) : ArbiterAside p (serveSluiceOrder a p).1 := by
  have closes (q : Part) (c : CloseCause) : ArbiterAside q (q.closeGate c) := of_gateAndCleaner (.closeGate q c)
  have mode (m : SluiceMode) : ArbiterAside p { p with sluice.mode := m } := by constructor <;> rfl
  unfold serveSluiceOrder
  split
  · exact mode .auto
  · unfold serveSluiceKeepClosed
    simp only
    split
    · exact (mode _).trans (closes _ _)
    · exact (mode _).trans (closes _ _)
    all_goals exact mode _
  · unfold serveSluiceClear
    split
    · exact closes p _
    all_goals exact refl p
  · exact refl p

theorem rakeOrder (a : Byte) (p : Part) : ArbiterAside p (serveRakeOrder a p).1 := by
  unfold serveRakeOrder
  split
  · unfold serveRakeStart
    split
    · exact of_gateAndCleaner (.startRake p _)
    · exact refl p
  · unfold serveRakeClear
    split
    · exact of_gateAndCleaner (.cleanerIdle p)
    all_goals exact refl p
  · exact refl p

theorem setMode (a : Byte) (p : Part) : ArbiterAside p (serveSetMode a p).1 := by
  unfold serveSetMode
  split
  · unfold serveHold
    split <;> constructor <;> rfl
  · unfold serveRelease
    split <;> constructor <;> rfl
  · exact refl p

theorem planAdd (w : PlanWords) (p : Part) : ArbiterAside p (servePlanAdd w p).1 := by
  unfold servePlanAdd
  split <;> constructor <;> rfl

theorem planClear (p : Part) : ArbiterAside p (servePlanClear p).1 := by
  unfold servePlanClear
  simp only
  split <;> constructor <;> rfl

theorem askPlan (n : Byte) (p : Part) : ArbiterAside p (serveAskPlan n p).1 := by
  unfold serveAskPlan
  split <;> exact refl p

theorem setAlerts (m : Byte) (p : Part) : ArbiterAside p (serveSetAlerts m p).1 := by
  unfold serveSetAlerts
  simp only
  split <;> constructor <;> rfl

theorem askConfig (t i : Byte) (p : Part) : ArbiterAside p (serveAskConfig t i p).1 := by
  unfold serveAskConfig
  split <;> exact refl p

theorem saveConfig (p : Part) : ArbiterAside p (serveSaveConfig p).1 := by
  unfold serveSaveConfig
  split
  · exact refl p
  · split <;> constructor <;> rfl

theorem restartPart (p : Part) : ArbiterAside p (serveRestartPart p).1 := by
  unfold serveRestartPart
  split <;> constructor <;> rfl

theorem recordActivation (p : Part) (n : Nat) : ArbiterAside p (p.recordActivation n) := by
  have skipped : ArbiterAside p (if 1 < n then p.record .planSkipped none (some ((n - 1 : Nat) : Int)) else p) := by
    split
    · exact .record _ _ _ _
    · exact refl p
  unfold Part.recordActivation
  simp only
  split
  · exact (skipped.trans (.record _ _ _ _)).trans (.record _ _ _ _)
  · exact skipped.trans (.record _ _ _ _)

/-- The timers that follow a station record start again or stop (R69, R94, R131, R151). -/
theorem timersFollow (p : Part) (old : StationRecord) :
    ArbiterAside p ((((p.estimatorFollows old).evaluationFollows old).supervisionFollows old).rakeFollows old) := by
  have est (q : Part) : ArbiterAside q (q.estimatorFollows old) := by
    unfold Part.estimatorFollows
    split <;> constructor <;> rfl
  have eval (q : Part) : ArbiterAside q (q.evaluationFollows old) := by
    unfold Part.evaluationFollows
    split <;> constructor <;> rfl
  have sup (q : Part) : ArbiterAside q (q.supervisionFollows old) := by
    unfold Part.supervisionFollows
    split <;> constructor <;> rfl
  have rake (q : Part) : ArbiterAside q (q.rakeFollows old) := by
    unfold Part.rakeFollows
    split <;> constructor <;> rfl
  exact (((est p).trans (eval _)).trans (sup _)).trans (rake _)

end ArbiterAside

namespace Part.BudgetDue

theorem of_aside (h : p.Agrees still) (units : q.units = p.units) (arbiter : q.arbiter = p.arbiter)
    (mains : q.supervision.mains = p.supervision.mains) : q.BudgetDue still :=
  h.budgetDue units (by rw [arbiter]) mains

end Part.BudgetDue

namespace Part.Agrees

/-! ### Plan and budget (R109, R142, R145) -/

theorem activate (h : p.Agrees still) (books : p.BooksHold) : p.activate.Agrees still := by
  unfold Part.activate
  split
  · exact h
  · rename_i newest _
    have applied := ArbiterAside.recordActivation
      ((p.applyEntry newest).setEntries (p.plan.entries.dropWhile (PlanEntry.due p.accounting.clock)))
      (p.plan.entries.takeWhile (PlanEntry.due p.accounting.clock)).length
    have appliedBooks : ((p.applyEntry newest).setEntries
        (p.plan.entries.dropWhile (PlanEntry.due p.accounting.clock))).BooksHold := books.congr rfl rfl
    exact (Part.BudgetDue.of_aside h applied.units applied.arbiter applied.mains).reformBudget
      (appliedBooks.recordActivation _)

theorem setBudget (h : p.Agrees still) (books : p.BooksHold) (n : Word16) : (serveSetBudget n p).1.Agrees still := by
  have due : Part.BudgetDue still { p with config.station.stationBudget := clampNat 0 5000 n.toNat } :=
    .of_aside h rfl rfl rfl
  exact due.reformBudget (books.congr rfl rfl)

theorem setClock (h : p.Agrees still) (books : p.BooksHold) (c : Word32) : (serveSetClock c p).1.Agrees still := by
  unfold serveSetClock
  refine activate ?_ ?_
  · exact h.congr rfl rfl rfl rfl
  · exact books.congr rfl rfl

/-! ### The entry into AUTONOMOUS (R148) -/

theorem unit_allAuto (p : Part) (u : UnitNo) : p.allAuto.unit u = { p.unit u with authority := .auto } :=
  Six.get_ofFn _ u

theorem allAuto (h : p.Agrees still) : p.allAuto.Agrees still := by
  have state (u : UnitNo) : (p.allAuto.unit u).state = (p.unit u).state := by rw [unit_allAuto]
  refine h.changeUnits ⟨fun u => ?_, h.queue.2⟩ (fun u => ?_) (fun u => ?_) (fun u => ?_) (fun u => ?_) rfl rfl
  · rw [state]
    exact h.queue.1 u
  · rw [unit_allAuto]
  · simp only [PumpUnit.inStart, state]
  · simp only [PumpUnit.inService, state]
  · rw [state]
    exact id

theorem enterAutonomous (h : p.Agrees still) (books : p.BooksHold) : p.enterAutonomous.Agrees still := by
  have entered : Part.Agrees still
      { p with
        supervision.mode := .autonomous
        supervision.autonomousSince := some p.accounting.uptime
        supervision.timer := none } := h.congr rfl rfl rfl rfl
  have enteredBooks : Part.BooksHold
      { p with
        supervision.mode := .autonomous
        supervision.autonomousSince := some p.accounting.uptime
        supervision.timer := none } := books.congr rfl rfl
  unfold Part.enterAutonomous
  simp only
  generalize ({ p with supervision := _ } : Part) = r at *
  have auto : r.allAuto.BooksHold := by
    refine ⟨fun u => ?_, fun e he => ?_, enteredBooks.once⟩
    · rw [unit_allAuto]
      exact enteredBooks.fit u
    · rw [unit_allAuto]
      exact enteredBooks.queued e he
  have due : r.allAuto.applyFallback.BudgetDue still := .of_aside entered.allAuto rfl rfl rfl
  exact (due.reformBudget (auto.congr rfl rfl)).record _ _ _

/-! ### The mains (R152 to R158) -/

/-- The supervision controller moves. Where units have to stand still after, the mains were away before, or are OK. -/
theorem setSupervision (h : p.Agrees still) (s : Supervision)
    (stands : still' → s.mains ≠ .ok → still ∧ p.supervision.mains ≠ .ok) :
    Part.Agrees still' { p with supervision := s } := by
  have balanced := h.balanced
  refine ⟨⟨⟨h.queue, h.unloaded, h.slot, fun k m => ?_⟩,
    ⟨balanced.shedding, balanced.delay, balanced.effective⟩⟩, h.sum⟩
  obtain ⟨before, away⟩ := stands k m
  exact h.stands before away

theorem mainsBack (h : p.Agrees True) (away : p.supervision.mains ≠ .ok) : p.mainsBack.Agrees True :=
  (h.setSupervision _ fun _ _ => ⟨trivial, away⟩).record _ _ _

end Part.Agrees

theorem units_loadsFell_of_noMains (away : p.supervision.mains ≠ .ok) : p.loadsFell.units = p.units := by
  have notReady : ¬p.sumLoads.shedOver.stationReady = true := by
    rw [stationReady_iff]
    rintro ⟨-, -, mains, -⟩
    refine away (Eq.trans ?_ mains)
    unfold Part.shedOver
    split <;> rfl
  unfold Part.loadsFell
  split
  · rw [grantCheck_of_notReady notReady, units_shedOver]
    rfl
  · rfl

/-- Without mains a MAINS order takes its unit out of service, and touches no other (R152, R153). -/
theorem unit_stopOrder_of_noMains (books : p.BooksHold) (away : p.supervision.mains ≠ .ok)
    (serves : (p.unit u).inService = true) :
    ((p.stopOrder u .mains).unit u).inService = false
      ∧ ∀ v, v ≠ u → (p.stopOrder u .mains).unit v = p.unit v := by
  have takes : (p.unit u).takesStop .mains = true := by
    rw [takesStop_iff]
    rcases (inService_iff _).mp serves with e | e | e <;> simp [e]
  obtain ⟨-, noRetry⟩ := noRetry_of_takesStop (books.fit u) takes
  obtain ⟨-, retry, -⟩ := stopOrdered_unit p u .mains
  have ordered := OnlyUnit.stopOrdered p u .mains
  have told {q : Part} (c : ComesApart u (p.stopOrdered u .mains) q) :
      (q.loadsFell.unit u).inService = false ∧ ∀ v, v ≠ u → q.loadsFell.unit v = p.unit v := by
    have only := ordered.trans c.only
    have mains : q.supervision.mains = p.supervision.mains := congrArg Accounts.mains only.accounts
    have unit (v : UnitNo) : q.loadsFell.unit v = q.unit v :=
      Part.unit_of_units (units_loadsFell_of_noMains (mains ▸ away)) v
    refine ⟨?_, fun v hv => (unit v).trans (only.others v hv)⟩
    rw [unit]
    exact (PumpUnit.of_standsApart c.state).2.2
  rw [Part.stopOrder, if_pos takes, takeStop_eq]
  split
  · exact told (ComesApart.enterStopping _ u).stopIfZero
  · exact told (.stopEnded (retry.trans noRetry))

/-- Without mains the MAINS orders to a list of units leave none in service that the list holds (R153). -/
theorem noneInService_stopAll (us : List UnitNo) : ∀ {p : Part}, p.BooksHold → p.supervision.mains ≠ .ok →
    (∀ v, (p.unit v).inService = true → v ∈ us) → ∀ v, ((stopAll .mains us p).unit v).inService = false := by
  induction us with
  | nil => exact fun _ _ h v => Bool.eq_false_iff.mpr fun c => by simpa using h v c
  | cons u us ih =>
    intro p books away h
    unfold stopAll
    split
    · rename_i serves
      obtain ⟨apart, others⟩ := unit_stopOrder_of_noMains books away serves
      have mains := (BlocksOnly.unitMoves.stopOrder p u .mains).supervision
      refine ih (books.stopOrder u _) (by rw [mains]; exact away) fun v hv => ?_
      have ne : v ≠ u := fun e => by simp [e, apart] at hv
      rw [others v ne] at hv
      exact (List.mem_cons.mp (h v hv)).resolve_left ne
    · rename_i rests
      refine ih books away fun v hv => (List.mem_cons.mp (h v hv)).resolve_left fun e => rests (e ▸ hv)

theorem noneInService_emptyQueue (h : ∀ v, (p.unit v).inService = false) (v : UnitNo) :
    (p.emptyQueue.unit v).inService = false := by
  rw [emptyQueue_eq]
  simp only [Part.unit, Six.get_ofFn]
  split
  · rfl
  · exact h v

theorem unit_zeroLoads (p : Part) (u : UnitNo) : p.zeroLoads.unit u = { p.unit u with reserved := 0 } :=
  Six.get_ofFn _ u

/-- With no unit in service the loads set to 0 leave every unit standing still (R153). -/
theorem Part.Agrees.zeroLoads (h : p.Agrees still) (service : ∀ v, (p.unit v).inService = false) :
    p.zeroLoads.Tied still' ∧ p.zeroLoads.reservedSum = 0 := by
  have state (u : UnitNo) : (p.zeroLoads.unit u).state = (p.unit u).state := by rw [unit_zeroLoads]
  refine ⟨⟨⟨⟨fun u => ?_, h.queue.2⟩, fun u _ => ?_, fun u => ?_, fun _ _ u => ⟨?_, ?_⟩⟩, h.balanced⟩, rfl⟩
  · rw [state]
    exact h.queue.1 u
  · rw [unit_zeroLoads]
  · have start : (p.zeroLoads.unit u).inStart = (p.unit u).inStart := by simp only [PumpUnit.inStart, state]
    rw [start]
    exact h.slot u
  · rw [unit_zeroLoads]
  · simp only [PumpUnit.inService, state]
    exact service u

theorem Part.Agrees.mainsLoss (h : p.Agrees True) (books : p.BooksHold) : p.mainsLoss.Agrees True := by
  unfold Part.mainsLoss
  simp only
  have lost : Part.Agrees False
      { p with
        supervision :=
          { p.supervision with
            restartSet := p.rebuiltRestartSet
            settle := none
            mains := .lost
            lostAt := some p.accounting.uptime } } := h.setSupervision _ nofun
  have lostBooks : Part.BooksHold
      { p with
        supervision :=
          { p.supervision with
            restartSet := p.rebuiltRestartSet
            settle := none
            mains := .lost
            lostAt := some p.accounting.uptime } } := books.congr rfl rfl
  have stopped := (lost.stopAll .mains UnitNo.all lostBooks).emptyQueue
  have service := noneInService_emptyQueue (noneInService_stopAll UnitNo.all lostBooks (by simp) fun v _ => by
    cases v <;> simp [UnitNo.all])
  obtain ⟨tied, sum⟩ := stopped.zeroLoads (still' := True) service
  exact (tied.loadsFell (sum ▸ Nat.zero_le _)).record _ _ _

namespace Part.Agrees

theorem restartWalk (us : List UnitNo) : ∀ {n : Nat} {p : Part}, p.Agrees still → p.BooksHold →
    (Machine.restartWalk us n p).1.Agrees still := by
  induction us with
  | nil => exact fun h _ => h
  | cons u us ih =>
    intro n p h books
    unfold Machine.restartWalk
    split
    · exact ih (h.consultEnqueue books u (by simp)) (books.consultEnqueue u (by simp))
    · exact ih h books

theorem restartBegun (h : p.Agrees still) (n : Int) : (p.restartBegun n).Agrees still := h.congr rfl rfl rfl rfl

theorem restart (h : p.Agrees True) (books : p.BooksHold) : p.restart.Agrees True := by
  have back : Part.Agrees True { p with supervision := { p.supervision with mains := .ok, settle := none } } :=
    h.setSupervision _ fun _ m => absurd rfl m
  have backBooks : Part.BooksHold { p with supervision := { p.supervision with mains := .ok, settle := none } } :=
    books.congr rfl rfl
  have driven := GateAndCleanerOnly.sluiceMainsOk
    (Part.reestimate { p with supervision := { p.supervision with mains := .ok, settle := none } })
  have again : p.mainsOkAgain.Agrees True := ((back.reestimate backBooks).aside (.of_gateAndCleaner driven)).grantCheck
  have againBooks : p.mainsOkAgain.BooksHold := (backBooks.reestimate.aside driven.unitsAside).grantCheck
  cases low : p.mainsOkAgain.gauge.effLow with
  | true =>
    rw [restart_of_effLow low]
    exact again.restartBegun _
  | false =>
    rw [restart_of_notEffLow low]
    exact (again.restartWalk _ againBooks).restartBegun _

/-! ### Configuration (R3, R198) -/

theorem rackForcedClear (h : p.Agrees still) : p.rackForcedClear.Agrees still := by
  unfold Part.rackForcedClear
  split
  · exact h
  · refine grantCheck (record ?_ _ _ _)
    exact h.congr rfl rfl rfl rfl

theorem writeGauge (h : p.Agrees still) (c : ChannelName) (r : GaugeRecord) : (p.writeGauge c r).Agrees still := by
  have written : Part.Agrees still
      { p with
        config.gauges := p.config.gauges.set c r
        gauge.channels := p.gauge.channels.set c (freshChannel r.fitted) } := h.congr rfl rfl rfl rfl
  unfold Part.writeGauge
  simp only
  split
  · exact written.rackForcedClear
  · exact written

theorem writeStation (h : p.Agrees still) (books : p.BooksHold) (r : StationRecord) :
    (p.writeStation r).Agrees still := by
  unfold Part.writeStation
  have follow := ArbiterAside.timersFollow { p with config.station := r, store.configured := true } p.config.station
  exact (Part.BudgetDue.of_aside h follow.units follow.arbiter follow.mains).reformBudget
    (books.congr follow.units (by rw [follow.arbiter]))

theorem takeRecord (h : p.Agrees still) (books : p.BooksHold) (r : RecordName) (bs : List Byte) :
    (Machine.takeRecord r bs p).1.Agrees still := by
  unfold Machine.takeRecord
  split
  · unfold takeLinkRecord
    split
    · unfold Part.writeLink
      simp only
      split <;> exact h.congr rfl rfl rfl rfl
    · exact h
  · unfold takeStationRecord
    generalize clampStation (decodeStation bs) = r
    simp only
    split
    · exact h.writeStation books _
    · exact h
  · unfold takeGaugeRecord
    simp only
    split
    · exact h
    · exact h.writeGauge _ _
  · unfold takeUnitRecord
    generalize decodeUnit bs = r
    simp only
    split
    · exact h
    · split
      · exact h.congr rfl rfl rfl rfl
      · exact h

theorem serveWriteConfig (h : p.Agrees still) (books : p.BooksHold) (t i : Byte) (bs : List Byte) :
    (Machine.serveWriteConfig t i bs p).1.Agrees still := by
  unfold Machine.serveWriteConfig writeRecord
  split
  · exact h
  · rename_i r _
    split
    · exact h
    · have written := h.takeRecord books r bs
      split
      · exact h
      · rename_i e
        rw [e] at written
        exact written

/-! ### Requests (R179 to R184) -/

theorem serveUnitOrder (h : p.Agrees still) (books : p.BooksHold) (n a : Byte) :
    (Machine.serveUnitOrder n a p).1.Agrees still := by
  unfold Machine.serveUnitOrder
  split
  · exact forUnit_keeps n h h.orderEnable
  · exact forUnit_keeps n h h.orderDisable
  · exact forUnit_keeps n h (h.orderHandStart books)
  · exact forUnit_keeps n h (h.orderHandStop books)
  · exact forUnit_keeps n h fun u => h.setAuthority u .auto
  · exact forUnit_keeps n h (h.orderClear books)
  · exact h

theorem serveKind (h : p.Agrees still) (books : p.BooksHold) (k : RequestKind) (body : List Byte) (cur : Currents) :
    (Machine.serveKind k body cur p).1.Agrees still := by
  have same {q : Part} (units : q.units = p.units) (arbiter : q.arbiter = p.arbiter)
      (accounts : q.accounts = p.accounts) : q.Agrees still :=
    h.congr units (by rw [arbiter]) (by rw [arbiter]) accounts
  unfold Machine.serveKind
  split
  · exact same rfl rfl rfl
  · exact h.immediateRound books cur
  · exact forUnit_keeps _ h fun u => h.consult u false
  · exact h.aside (.askPlan _ p)
  · exact h.aside (.askConfig _ _ p)
  · exact h
  · exact same rfl rfl rfl
  · exact same rfl rfl rfl
  · exact h.setBudget books _
  · exact h.setClock books _
  · exact h.aside (.setMode _ p)
  · exact h.aside (.setAlerts _ p)
  · exact same rfl rfl rfl
  · exact h.serveUnitOrder books _ _
  · exact h.aside (.sluiceOrder _ p)
  · exact h.aside (.rakeOrder _ p)
  · exact h.aside (.planAdd _ p)
  · exact h.aside (.planClear p)
  · exact h.serveWriteConfig books _ _ _
  · exact h.aside (.saveConfig p)
  · exact same rfl rfl rfl
  · exact h.aside (.restartPart p)

theorem modLink (h : p.Agrees still) (f : Link → Link) : (p.modLink f).Agrees still := h.congr rfl rfl rfl rfl

/-- An accepted telegram: its service decides. -/
theorem serve (h : p.Agrees still) (books : p.BooksHold) (kind tag : Byte) {f : Part → Part × Response}
    (hf : ∀ q : Part, q.Agrees still → q.BooksHold → (f q).1.Agrees still) : (p.serve kind tag f).Agrees still := by
  have served := hf _ (h.aside (.arrived p)) (books.aside (.arrived p))
  exact served.congr rfl rfl rfl rfl

theorem request (h : p.Agrees still) (books : p.BooksHold) (k : RequestKind) (tag : Byte) {f : Part → Part × Response}
    (hf : ∀ q : Part, q.Agrees still → q.BooksHold → (f q).1.Agrees still) :
    (Machine.request k tag f p).Agrees still := by
  unfold Machine.request
  split
  · exact h.serve books _ tag hf
  · exact h.modLink _

/-- A request whose service leaves the arbiter aside. -/
theorem requestAside (h : p.Agrees still) (books : p.BooksHold) (k : RequestKind) (tag : Byte)
    {f : Part → Part × Response} (hf : ∀ q, ArbiterAside q (f q).1) : (Machine.request k tag f p).Agrees still :=
  h.request books k tag fun q a _ => a.aside (hf q)

theorem receiveByte (h : p.Agrees still) (books : p.BooksHold) (b : Byte) (cur : Currents) :
    (p.receiveByte b cur).Agrees still := by
  unfold Part.receiveByte
  split
  · split
    · exact h.modLink _
    · exact h
  · unfold Part.extendTelegram
    split
    · exact h.modLink _
    · split
      · unfold Part.takeTelegram Part.testTelegram
        split
        · split
          · exact h.serve books _ _ fun q a _ => a
          · split
            · exact h.serve books _ _ fun q a k => a.serveKind k _ _ _
            · exact (h.modLink _).modLink _
        · exact h.modLink _
      · exact h.modLink _
  · split
    · exact h.modLink _
    · exact h
  · exact h.modLink _
  · exact h.modLink _

end Part.Agrees

/-! ### Resets (R118, R160) -/

/-- The units of a reset once their lines have acted hold no load, and are neither QUEUED nor in service (R58). -/
theorem unit_linesActed_of_fresh (rec rec' : UnitRecord) (lines : UnitLines) (history : List Word32)
    (t : Option Timer) :
    ((PumpUnit.afterReset rec lines history).linesActed rec' t).state.standsApart = true
      ∧ ((PumpUnit.afterReset rec lines history).linesActed rec' t).reserved = 0 := by
  refine ⟨?_, reserved_linesActed _ _ _⟩
  unfold PumpUnit.linesActed
  split
  · rfl
  split
  · rfl
  split
  · rfl
  · cases e : rec.enabled <;> simp [PumpUnit.afterReset, UnitState.standsApart, e]

theorem Part.Agrees.ofReset (units : ∀ u, (p.unit u).state.standsApart = true ∧ (p.unit u).reserved = 0)
    (queue : p.arbiter.queue = []) (slot : p.arbiter.slot = none) (committed : p.arbiter.committed = 0)
    (shed : p.arbiter.shed = .normal) (delay : p.arbiter.shedDelay = none)
    (effective : p.arbiter.effective = p.budgetNow) : p.Agrees still := by
  have apart (u : UnitNo) := PumpUnit.of_standsApart (units u).1
  have sum : p.reservedSum = p.zeroLoads.reservedSum :=
    reservedSum_congr fun u => by rw [(units u).2, unit_zeroLoads]
  refine ⟨⟨⟨⟨fun u => ?_, by simp [queue]⟩, fun u _ => (units u).2, fun u => ?_,
    fun _ _ u => ⟨(units u).2, (apart u).2.2⟩⟩, ⟨?_, ?_, effective⟩⟩, ?_⟩
  · simp [queue, (apart u).1]
  · simp [slot, (apart u).2.1]
  · show p.arbiter.shed = .shedding ↔ p.arbiter.effective < p.arbiter.committed
    simp [shed, committed]
  · show p.arbiter.shedDelay.isSome = true ↔ p.arbiter.shed = .shedding
    simp [shed, delay]
  · rw [committed, sum]
    rfl

end Sys2Proof.Machine
end

section
/-! The arbiter's books (O5). -/

namespace Sys2Proof.Machine

variable {p : Part}

/-! ### Resets (R160) -/

/-- A unit that a reset leaves fits its books once its lines have acted (R58). -/
theorem booksFit_linesActed (rec rec' : UnitRecord) (lines : UnitLines) (history : List Word32) (t : Option Timer) :
    ((PumpUnit.afterReset rec lines history).linesActed rec' t).booksFit := by
  unfold PumpUnit.linesActed
  split
  · simp [PumpUnit.booksFit, PumpUnit.delivering, PumpUnit.afterReset, PumpUnit.atReset]
  split
  · simp [PumpUnit.booksFit, PumpUnit.delivering, PumpUnit.afterReset, PumpUnit.atReset]
  split
  · simp [PumpUnit.booksFit, PumpUnit.delivering, PumpUnit.afterReset, PumpUnit.atReset]
  · rename_i run
    have released : lines.run = false := by simpa [PumpUnit.afterReset] using run
    cases e : rec.enabled <;>
      simp [PumpUnit.booksFit, PumpUnit.delivering, PumpUnit.afterReset, PumpUnit.atReset, e, released]

theorem agrees_resetTo (p : Part) (restart : Bool) (inp : FieldInputs) : (p.resetTo restart inp).Agrees True := by
  have units (u : UnitNo) : (((UnitNo.all.foldl Part.linesAct (p.blank restart inp.lines)).setHold
      inp.lines.floatLow).withRecords ((p.blank restart inp.lines).resetRecords restart)).unit u
      = ((p.blank restart inp.lines).unit u).linesActed ((p.blank restart inp.lines).unitRecord u)
          ((p.blank restart inp.lines).startTimer ((p.blank restart inp.lines).unitRecord u).stopTimeout) :=
    (congrArg (fun x : Six PumpUnit => x.get u) (units_foldl_linesAct _)).trans (Six.get_ofFn _ u)
  have queue : (((UnitNo.all.foldl Part.linesAct (p.blank restart inp.lines)).setHold
      inp.lines.floatLow).withRecords ((p.blank restart inp.lines).resetRecords restart)).arbiter.queue = [] := rfl
  rw [resetTo_eq]
  refine Part.Agrees.round (.ofReset (fun u => ?_) queue rfl rfl rfl rfl rfl)
    ⟨fun u => ?_, by simp [queue], by simp [queue]⟩ _
  · rw [units, unit_blank]
    exact unit_linesActed_of_fresh _ _ _ _ _
  · rw [units, unit_blank]
    exact booksFit_linesActed _ _ _ _ _

/-! ### Lines (R12, R33, R41) -/

/-- The trip line takes no part in the arbiter's books. -/
theorem agrees_tripLine {still : Prop} (h : p.Agrees still) (u : UnitNo) (b : Bool) :
    (p.modUnit u fun pu => { pu with trip := b }).Agrees still := h.modUnit u rfl rfl

/-- The primed line takes no part in the arbiter's books. -/
theorem agrees_primedLine {still : Prop} (h : p.Agrees still) (u : UnitNo) (b : Bool) :
    (p.modUnit u fun pu => { pu with primed := b }).Agrees still := h.modUnit u rfl rfl

section
variable {still : Prop} (h : p.Agrees still) (books : p.BooksHold)
include h books

theorem agrees_setFloats (high low : Bool) : (p.setFloats high low).Agrees still ∧ (p.setFloats high low).BooksHold :=
  ⟨h.congr rfl rfl rfl rfl, books.congr rfl rfl⟩

theorem agrees_floatHighOn : p.floatHighOn.Agrees still ∧ p.floatHighOn.BooksHold := by
  obtain ⟨agrees, kept⟩ := agrees_setFloats h books true p.gauge.floatLow
  unfold Part.floatHighOn
  simp only
  split
  · exact ⟨agrees.record _ _ _, kept.record _ _ _⟩
  · exact ⟨(agrees.record _ _ _).floatHighForwarded (kept.record _ _ _), (kept.record _ _ _).floatHighForwarded⟩

theorem agrees_floatLowOn : p.floatLowOn.Agrees still ∧ p.floatLowOn.BooksHold := by
  obtain ⟨agrees, kept⟩ := agrees_setFloats h books p.gauge.floatHigh true
  have reported := agrees.record .floatLow none none
  have reportedBooks := kept.record .floatLow none none
  unfold Part.floatLowOn
  simp only
  split
  · exact ⟨(reported.record _ _ _).protect (reportedBooks.record _ _ _), (reportedBooks.record _ _ _).protect⟩
  · exact ⟨reported.protect reportedBooks, reportedBooks.protect⟩

theorem agrees_floatLowOff : p.floatLowOff.Agrees still ∧ p.floatLowOff.BooksHold := by
  obtain ⟨agrees, kept⟩ := agrees_setFloats h books p.gauge.floatHigh false
  unfold Part.floatLowOff
  simp only
  split
  · exact ⟨(agrees.record _ _ _).floatHighForwarded (kept.record _ _ _), (kept.record _ _ _).floatHighForwarded⟩
  · exact ⟨agrees, kept⟩

end

/-! ### Commands -/

theorem agrees_if {c : Prop} [Decidable c] {a b : Part} (ha : c → a.Agrees True) (hb : ¬c → b.Agrees True) :
    (if c then a else b).Agrees True := by
  split
  · exact ha ‹_›
  · exact hb ‹_›

section
variable {s t : State} (h : s.part.Agrees True) (books : s.part.BooksHold)
include h books

/-- The line events of a unit. -/
theorem agrees_unitLine (u : UnitNo) {c : Instr}
    (hc : c = .runAsserted u ∨ c = .runReleased u ∨ c = .tripAsserted u ∨ c = .tripReleased u
      ∨ c = .primedAsserted u ∨ c = .primedReleased u) (e : exec c s = .next t) : t.part.Agrees True := by
  rcases hc with rfl | rfl | rfl | rfl | rfl | rfl <;> injection e with e <;> subst e
  · exact agrees_if (fun _ => h) fun _ => (h.runOn books u).takeUnseenRound (books.runOn u)
  · exact agrees_if (fun _ => (h.runOff books u).takeUnseenRound (books.runOff u)) fun _ => h
  · exact agrees_if (fun _ => h) fun _ =>
      (Part.Agrees.tripOn (agrees_tripLine h u true) u).takeUnseenRound ((books.tripLine u true).tripOn u)
  · exact agrees_tripLine h u false
  · exact agrees_if (fun _ => h) fun _ =>
      (Part.Agrees.primedOn (agrees_primedLine h u true) u).takeUnseenRound ((books.primedLine u true).primedOn u)
  · exact agrees_primedLine h u false

/-- The timer expiries of a unit. -/
theorem agrees_unitTimer (u : UnitNo) {c : Instr} {cur : Currents}
    (hc : c = .primeTimerExpiry u cur ∨ c = .startTimerExpiry u cur ∨ c = .stopTimerExpiry u
      ∨ c = .restTimerExpiry u cur ∨ c = .minRunTimerExpiry u ∨ c = .runLossTimerExpiry u
      ∨ c = .dwellTimerExpiry u) (e : exec c s = .next t) : t.part.Agrees True := by
  rcases hc with rfl | rfl | rfl | rfl | rfl | rfl | rfl <;> injection e with e <;> subst e
  · refine agrees_if (fun hs => ?_) fun _ => h
    simp only [Bool.and_eq_true, beq_iff_eq] at hs
    have start : (s.part.unit u).inStart = true := by simp [PumpUnit.inStart, hs]
    exact (h.failStart start _ _).takeDueRound (books.failStart start _ _) cur
  · refine agrees_if (fun hs => ?_) fun _ => h
    simp only [Bool.and_eq_true, beq_iff_eq] at hs
    have start : (s.part.unit u).inStart = true := by simp [PumpUnit.inStart, hs]
    exact (h.failStart start _ _).takeDueRound (books.failStart start _ _) cur
  · refine agrees_if (fun hs => ?_) fun _ => h
    simp only [Bool.and_eq_true, beq_iff_eq] at hs
    exact h.stopFails hs.1
  · refine agrees_if (fun hs => ?_) fun _ => h
    simp only [Bool.and_eq_true, beq_iff_eq] at hs
    exact (h.restExpires books hs.1).takeDueRound (books.endRest hs.1) cur
  · exact agrees_if (fun _ => h.modUnit u rfl rfl) fun _ => h
  · refine agrees_if (fun hs => ?_) fun _ => h
    simp only [Bool.and_eq_true, beq_iff_eq] at hs
    exact h.runLost hs.1
  · exact agrees_if (fun _ => (h.dwellExpired books u).takeUnseenRound (books.dwellExpired u)) fun _ => h

/-- The float lines. -/
theorem agrees_floatLine {cur : Currents} {c : Instr}
    (hc : c = .floatHighAsserted cur ∨ c = .floatHighReleased cur ∨ c = .floatLowAsserted cur
      ∨ c = .floatLowReleased cur) (e : exec c s = .next t) : t.part.Agrees True := by
  have round {q : Part} (k : q.Agrees True ∧ q.BooksHold) : (q.immediateRound cur).Agrees True :=
    k.1.immediateRound k.2 cur
  rcases hc with rfl | rfl | rfl | rfl <;> injection e with e <;> subst e
  · exact agrees_if (fun _ => h) fun _ => round (agrees_floatHighOn h books)
  · exact agrees_if (fun _ => round (agrees_setFloats h books _ _)) fun _ => h
  · exact agrees_if (fun _ => h) fun _ => round (agrees_floatLowOn h books)
  · exact agrees_if (fun _ => round (agrees_floatLowOff h books)) fun _ => h

/-- The requests to a unit. -/
theorem agrees_unitRequest {tag n : Byte} {cur : Currents} {c : Instr}
    (hc : c = .enable tag n ∨ c = .disable tag n ∨ c = .handStart tag n cur ∨ c = .handStop tag n
      ∨ c = .unitAuto tag n ∨ c = .unitClear tag n ∨ c = .askUnit tag n) (e : exec c s = .next t) :
    t.part.Agrees True := by
  rcases hc with rfl | rfl | rfl | rfl | rfl | rfl | rfl <;> injection e with e <;> subst e
  · exact h.request books _ tag fun q a _ => forUnit_keeps n a a.orderEnable
  · exact (h.request books _ tag fun q a _ => forUnit_keeps n a a.orderDisable).takeUnseenRound
      (booksHold_request books _ tag fun q b => forUnit_keeps n b b.orderDisable)
  · exact (h.request books _ tag fun q a b => forUnit_keeps n a (a.orderHandStart b)).takeDueRound
      (booksHold_request books _ tag fun q b => forUnit_keeps n b b.orderHandStart) cur
  · exact (h.request books _ tag fun q a b => forUnit_keeps n a (a.orderHandStop b)).takeUnseenRound
      (booksHold_request books _ tag fun q b => forUnit_keeps n b b.orderHandStop)
  · exact h.request books _ tag fun q a _ => forUnit_keeps n a fun u => a.setAuthority u .auto
  · exact h.request books _ tag fun q a b => forUnit_keeps n a (a.orderClear b)
  · exact h.request books _ tag fun q a _ => forUnit_keeps n a fun u => a.consult u false

/-- The commands of arbiter and dispatch controller. -/
theorem agrees_arbiter {tag : Byte} {n : Word16} {cur : Currents} {c : Instr}
    (hc : c = .dispatchEvaluation cur ∨ c = .staggerTimerExpiry ∨ c = .shedDelayTimerExpiry ∨ c = .curtailAsserted
      ∨ c = .curtailReleased ∨ c = .setBudget tag n) (e : exec c s = .next t) : t.part.Agrees True := by
  rcases hc with rfl | rfl | rfl | rfl | rfl | rfl <;> injection e with e <;> subst e
  · have begun : (s.part.startEvaluation.formRanking).Agrees True := h.congr rfl rfl rfl rfl
    have begunBooks : (s.part.startEvaluation.formRanking).BooksHold := books.congr rfl rfl
    exact (begun.stages begunBooks).takeDueRound begunBooks.stages cur
  · have expired : Part.Agrees True { s.part with arbiter.stagger := none } := h.congr rfl rfl rfl rfl
    have kept : Part.BooksHold { s.part with arbiter.stagger := none } := books.congr rfl rfl
    exact agrees_if (fun _ => expired.grantCheck.takeUnseenRound kept.grantCheck) fun _ => h
  · obtain ⟨shedding, delay, effective⟩ := h.balanced
    refine agrees_if (fun runs => agrees_if (fun above => ?_) fun within => ?_) fun _ => h
    · have again : s.part.startShedDelay.Agrees True := by
        refine ⟨⟨h.toPlaced.congr rfl rfl rfl rfl, ⟨shedding, ?_, effective⟩⟩, h.sum⟩
        exact ⟨fun _ => shedding.mpr above, fun _ => rfl⟩
      have kept : s.part.startShedDelay.BooksHold := books.congr rfl rfl
      exact (again.shedOne kept).takeUnseenRound kept.shedOne
    · exact absurd (shedding.mp (delay.mp runs)) within
  · exact agrees_if (fun _ => h) fun _ => (h.curtailMoved books _ _).takeUnseenRound (books.curtailMoved _ _)
  · exact agrees_if (fun _ => (h.curtailMoved books _ _).takeUnseenRound (books.curtailMoved _ _)) fun _ => h
  · exact (h.request books _ tag fun q a b => a.setBudget b n).takeUnseenRound
      (booksHold_request books _ tag fun q b => b.setBudget n)

/-- The mains lines and the settle timer. -/
theorem agrees_mains (follows : s.part.MainsFollows) {cur : Currents} {c : Instr}
    (hc : c = .mainsOkReleased cur ∨ c = .mainsOkAsserted cur ∨ c = .settleTimerExpiry cur) (e : exec c s = .next t) :
    t.part.Agrees True := by
  rcases hc with rfl | rfl | rfl <;> injection e with e <;> subst e
  · refine agrees_if (fun _ => ?_) fun _ => h
    have released : Part.Agrees True { s.part with supervision.mainsOk := false } := h.congr rfl rfl rfl rfl
    have releasedBooks : Part.BooksHold { s.part with supervision.mainsOk := false } := books.congr rfl rfl
    have frame := (GateAndCleanerOnly.sluiceMainsLost
      (Part.mainsLoss { s.part with supervision.mainsOk := false })).trans (.cleanerMainsLost _)
    exact ((released.mainsLoss releasedBooks).aside (.of_gateAndCleaner frame)).immediateRound
      (releasedBooks.mainsLoss.aside frame.unitsAside) cur
  · refine agrees_if (fun _ => h) fun off => ?_
    have lost : s.part.supervision.mains = .lost := follows.1.mpr (by simpa using off)
    have asserted : Part.Agrees True { s.part with supervision.mainsOk := true } := h.congr rfl rfl rfl rfl
    have assertedBooks : Part.BooksHold { s.part with supervision.mainsOk := true } := books.congr rfl rfl
    have away : s.part.supervision.mains ≠ .ok := by simp [lost]
    exact (asserted.mainsBack away).immediateRound (assertedBooks.congr rfl rfl) cur
  · exact agrees_if (fun _ => (h.restart books).takeDueRound books.restart cur) fun _ => h

end

/-- The gate: no unit, and nothing of the arbiter, is touched. -/
theorem agrees_limitMoved {p : Part} {still : Prop} (h : p.Agrees still) (g : Sluice) (b : Bool) :
    ({ p with sluice := g }.limitMoved b).Agrees still := by
  have moved : Part.Agrees still { p with sluice := g } := h.congr rfl rfl rfl rfl
  exact moved.aside (.of_gateAndCleaner (.limitMoved _ b))

/-- Every command keeps the arbiter's books. -/
theorem agrees_exec {s t : State} (h : s.part.Agrees True) (books : s.part.BooksHold) (follows : s.part.MainsFollows)
    (c : Instr) (e : exec c s = .next t) : t.part.Agrees True := by
  have same {q : Part} (units : q.units = s.part.units) (arbiter : q.arbiter = s.part.arbiter)
      (accounts : q.accounts = s.part.accounts) : q.Agrees True :=
    h.congr units (by rw [arbiter]) (by rw [arbiter]) accounts
  cases c
  case runAsserted u => exact agrees_unitLine h books u (by simp) e
  case runReleased u => exact agrees_unitLine h books u (by simp) e
  case tripAsserted u => exact agrees_unitLine h books u (by simp) e
  case tripReleased u => exact agrees_unitLine h books u (by simp) e
  case primedAsserted u => exact agrees_unitLine h books u (by simp) e
  case primedReleased u => exact agrees_unitLine h books u (by simp) e
  case primeTimerExpiry u cur => exact agrees_unitTimer (cur := cur) h books u (by simp) e
  case startTimerExpiry u cur => exact agrees_unitTimer (cur := cur) h books u (by simp) e
  case stopTimerExpiry u => exact agrees_unitTimer (cur := ⟨0, 0, 0, 0⟩) h books u (by simp) e
  case restTimerExpiry u cur => exact agrees_unitTimer (cur := cur) h books u (by simp) e
  case minRunTimerExpiry u => exact agrees_unitTimer (cur := ⟨0, 0, 0, 0⟩) h books u (by simp) e
  case runLossTimerExpiry u => exact agrees_unitTimer (cur := ⟨0, 0, 0, 0⟩) h books u (by simp) e
  case dwellTimerExpiry u => exact agrees_unitTimer (cur := ⟨0, 0, 0, 0⟩) h books u (by simp) e
  case floatHighAsserted cur => exact agrees_floatLine (cur := cur) h books (by simp) e
  case floatHighReleased cur => exact agrees_floatLine (cur := cur) h books (by simp) e
  case floatLowAsserted cur => exact agrees_floatLine (cur := cur) h books (by simp) e
  case floatLowReleased cur => exact agrees_floatLine (cur := cur) h books (by simp) e
  case enable tag n => exact agrees_unitRequest (cur := ⟨0, 0, 0, 0⟩) (tag := tag) (n := n) h books (by simp) e
  case disable tag n => exact agrees_unitRequest (cur := ⟨0, 0, 0, 0⟩) (tag := tag) (n := n) h books (by simp) e
  case handStart tag n cur => exact agrees_unitRequest (cur := cur) (tag := tag) (n := n) h books (by simp) e
  case handStop tag n => exact agrees_unitRequest (cur := ⟨0, 0, 0, 0⟩) (tag := tag) (n := n) h books (by simp) e
  case unitAuto tag n => exact agrees_unitRequest (cur := ⟨0, 0, 0, 0⟩) (tag := tag) (n := n) h books (by simp) e
  case unitClear tag n => exact agrees_unitRequest (cur := ⟨0, 0, 0, 0⟩) (tag := tag) (n := n) h books (by simp) e
  case askUnit tag n => exact agrees_unitRequest (cur := ⟨0, 0, 0, 0⟩) (tag := tag) (n := n) h books (by simp) e
  case dispatchEvaluation cur => exact agrees_arbiter (cur := cur) (tag := 0#8) (n := 0#16) h books (by simp) e
  case staggerTimerExpiry => exact agrees_arbiter (cur := ⟨0, 0, 0, 0⟩) (tag := 0#8) (n := 0#16) h books (by simp) e
  case shedDelayTimerExpiry => exact agrees_arbiter (cur := ⟨0, 0, 0, 0⟩) (tag := 0#8) (n := 0#16) h books (by simp) e
  case curtailAsserted => exact agrees_arbiter (cur := ⟨0, 0, 0, 0⟩) (tag := 0#8) (n := 0#16) h books (by simp) e
  case curtailReleased => exact agrees_arbiter (cur := ⟨0, 0, 0, 0⟩) (tag := 0#8) (n := 0#16) h books (by simp) e
  case setBudget tag n => exact agrees_arbiter (cur := ⟨0, 0, 0, 0⟩) (tag := tag) (n := n) h books (by simp) e
  case mainsOkReleased cur => exact agrees_mains (cur := cur) h books follows (by simp) e
  case mainsOkAsserted cur => exact agrees_mains (cur := cur) h books follows (by simp) e
  case settleTimerExpiry cur => exact agrees_mains (cur := cur) h books follows (by simp) e
  all_goals
    injection e with e
    subst e
  case powerOnReset inp => exact agrees_resetTo _ _ _
  case samplingRound cur => exact h.round books cur
  case historyTimerExpiry => exact same rfl rfl rfl
  case accountingSecond =>
    refine Part.Agrees.takeUnseenRound (Part.Agrees.activate ?_ ?_) (Part.BooksHold.activate ?_)
    · exact same rfl rfl rfl
    · exact books.congr rfl rfl
    · exact books.congr rfl rfl
  case sluiceAtOpenAsserted => exact agrees_if (fun _ => h) fun _ => agrees_limitMoved h _ _
  case sluiceAtOpenReleased => exact agrees_if (fun _ => agrees_limitMoved h _ _) fun _ => h
  case sluiceAtClosedAsserted => exact agrees_if (fun _ => h) fun _ => agrees_limitMoved h _ _
  case sluiceAtClosedReleased => exact agrees_if (fun _ => agrees_limitMoved h _ _) fun _ => h
  case travelTimerExpiry => exact agrees_if (fun _ => same rfl rfl rfl) fun _ => h
  case sluiceAuto tag => exact h.requestAside books _ tag (.sluiceOrder 1#8)
  case sluiceKeepClosed tag => exact h.requestAside books _ tag (.sluiceOrder 2#8)
  case sluiceClear tag => exact h.requestAside books _ tag (.sluiceOrder 3#8)
  case rakeDoneAsserted =>
    exact agrees_if (fun _ => h) fun _ => agrees_if (fun _ => same rfl rfl rfl) fun _ => same rfl rfl rfl
  case rakeDoneReleased => exact same rfl rfl rfl
  case rakingTimerExpiry => exact agrees_if (fun _ => same rfl rfl rfl) fun _ => h
  case intervalTimerExpiry =>
    exact agrees_if (fun _ => agrees_if (fun _ => same rfl rfl rfl) fun _ => same rfl rfl rfl) fun _ => h
  case pauseTimerExpiry => exact same rfl rfl rfl
  case rakeStart tag => exact h.requestAside books _ tag (.rakeOrder 1#8)
  case rakeClear tag => exact h.requestAside books _ tag (.rakeOrder 2#8)
  case setTarget tag a b => exact h.requestAside books _ tag fun q => by constructor <;> rfl
  case planAdd tag w => exact h.requestAside books _ tag (.planAdd w)
  case planClear tag => exact h.requestAside books _ tag .planClear
  case askPlan tag n => exact h.requestAside books _ tag (.askPlan n)
  case supervisionTimerExpiry =>
    exact agrees_if (fun _ => (h.enterAutonomous books).takeUnseenRound books.enterAutonomous) fun _ => h
  case setModeHold tag => exact h.requestAside books _ tag (.setMode 1#8)
  case setModeRelease tag => exact h.requestAside books _ tag (.setMode 2#8)
  case restartPart tag => exact h.requestAside books _ tag .restartPart
  case askStation tag => exact h.requestAside books _ tag fun q => by constructor <;> rfl
  case askGauges tag cur => exact h.request books _ tag fun q a b => a.immediateRound b cur
  case askCounters tag => exact h.requestAside books _ tag fun q => by constructor <;> rfl
  case setClock tag n =>
    exact (h.request books _ tag fun q a b => a.setClock b n).takeUnseenRound
      (booksHold_request books _ tag fun q b => b.setClock n)
  case zeroCounters tag => exact h.requestAside books _ tag fun q => by constructor <;> rfl
  case takeEvents tag n => exact h.requestAside books _ tag fun q => by constructor <;> rfl
  case setAlerts tag n => exact h.requestAside books _ tag (.setAlerts n)
  case clearAlerts tag n => exact h.requestAside books _ tag fun q => by constructor <;> rfl
  case writeConfigLink tag i bs => exact h.request books _ tag fun q a b => a.serveWriteConfig b _ i bs
  case writeConfigStation tag i bs =>
    exact (h.request books _ tag fun q a b => a.serveWriteConfig b _ i bs).takeUnseenRound
      (booksHold_request books _ tag fun q b => b.serveWriteConfig _ i bs)
  case writeConfigGauge tag i bs =>
    exact (h.request books _ tag fun q a b => a.serveWriteConfig b _ i bs).takeUnseenRound
      (booksHold_request books _ tag fun q b => b.serveWriteConfig _ i bs)
  case writeConfigUnit tag i bs => exact h.request books _ tag fun q a b => a.serveWriteConfig b _ i bs
  case askConfig tag a b => exact h.requestAside books _ tag (.askConfig a b)
  case saveConfig tag => exact h.requestAside books _ tag .saveConfig
  case saveAttemptCompletion b =>
    dsimp only
    split
    · refine agrees_if (fun _ => same rfl rfl rfl) fun _ => ?_
      unfold Part.saveFailed
      exact agrees_if (fun _ => same rfl rfl rfl) fun _ => same rfl rfl rfl
    · exact h
  case unknownKind tag n =>
    exact agrees_if (fun _ => h.serve books _ tag fun q a _ => a) fun _ => same rfl rfl rfl
  case checkFailure => exact same rfl rfl rfl
  case oversize n => exact same rfl rfl rfl
  case overrun => exact same rfl rfl rfl
  case gapTimerExpiry => exact same rfl rfl rfl
  case replyEnd inp =>
    refine agrees_if (fun _ => ?_) fun _ => h
    unfold Part.replyEnds
    split
    · unfold Part.afterReply
      split
      · exact same rfl rfl rfl
      · exact same rfl rfl rfl
      · exact agrees_resetTo _ _ _
    · exact same rfl rfl rfl
  case byteReceived b cur => exact (h.receiveByte books b cur).takeDueRound (books.receiveByte b cur) cur
  case refusalLength tag n m => exact agrees_if (fun _ => same rfl rfl rfl) fun _ => same rfl rfl rfl

end Sys2Proof.Machine

open Sys2Proof Sys2Proof.Machine in
/-- Settles O5: with the books of the units, every command keeps queue, slot, loads, shed and budget in agreement; the
mains state, LOST while MAINS_OK is released, says that units still stand still when the mains returns. -/
theorem arbiterAgreesWithUnits : Obligations.ArbiterAgreesWithUnits := by
  intro s t arbiter fit follows e
  have settled := Part.Settled.ofBooksFit fit arbiter.1
  rcases step_cases s t e with ⟨c, rest, -, k⟩ | rfl
  · exact (agrees_exec (s := { s with pending := rest }) (arbiter.agrees settled.books) settled.books follows c
      k).consistent
  · exact arbiter
end

section
/-! The mains state, the gate and the cleaner (chapters 7 and 9): O7. -/

namespace Sys2Proof.Machine

/-! ### What every command keeps of mains, gate and cleaner -/

/-- `q` keeps what `p` has of the three: the mains state follows its line and its timer, the drive lines and the mark
of the interval follow the sluice state, RAKE and its timer follow the cleaner state. -/
structure MainsGateCleanerKept (p q : Part) : Prop where
  mains : p.MainsFollows → q.MainsFollows
  sluice : p.SluiceFollows → q.SluiceFollows
  cleaner : p.CleanerFollows → q.CleanerFollows

namespace MainsGateCleanerKept

variable {p q : Part}

/-- The mark of the interval may be cleared at any time, and set where the gate stands closed (R61). -/
theorem of_mark (hm : q.supervision = p.supervision) (hs : q.sluice = p.sluice) (hc : q.cleaner = p.cleaner)
    (mark : q.estimator.closedThroughout = true → p.estimator.closedThroughout = true ∨ p.sluiceClosed = true) :
    MainsGateCleanerKept p q where
  mains h := by rw [Part.MainsFollows, hm]; exact h
  sluice h := by
    obtain ⟨opens, closes, travel, closed⟩ := h
    rw [Part.SluiceFollows, hs]
    exact ⟨opens, closes, travel, fun m => (mark m).elim closed eq_of_beq⟩
  cleaner h := by rw [Part.CleanerFollows, hc]; exact h

/-- A move that touches none of the three blocks, nor the mark of the interval. -/
theorem untouched (hm : q.supervision = p.supervision) (hs : q.sluice = p.sluice) (hc : q.cleaner = p.cleaner)
    (he : q.estimator.closedThroughout = p.estimator.closedThroughout) : MainsGateCleanerKept p q :=
  of_mark hm hs hc fun m => .inl (he ▸ m)

end MainsGateCleanerKept

/-! ### The three blocks after a reset (R71, R128, R133, R159) -/

section
variable (p : Part) (restart : Bool) (l : FieldLines)

theorem mainsFollows_blank : (p.blank restart l).MainsFollows := by
  have mains : (p.blank restart l).supervision.mains = if l.mainsOk then .settling else .lost := rfl
  have line : (p.blank restart l).supervision.mainsOk = l.mainsOk := rfl
  have settle : (p.blank restart l).supervision.settle.isSome = l.mainsOk := by
    have timer : (p.blank restart l).supervision.settle
        = if l.mainsOk then
            (p.blank restart l).startTimer (p.blank restart l).config.station.settleTime
          else none := rfl
    rw [timer]
    cases l.mainsOk <;> rfl
  rw [Part.MainsFollows, mains, line, settle]
  cases l.mainsOk <;> simp

/-- After a reset the gate is driven in no state: CLOSING waits for mains (R128). -/
theorem sluiceFollows_blank : (p.blank restart l).SluiceFollows := by
  have gate : (p.blank restart l).sluice = Sluice.afterReset l := rfl
  have mark : (p.blank restart l).estimator.closedThroughout = (sluiceStateAt l == .closed) := rfl
  have notOpening : sluiceStateAt l ≠ .opening := by
    unfold sluiceStateAt
    split
    · decide
    · split <;> decide
  rw [Part.SluiceFollows, gate, mark]
  simp [Sluice.afterReset, notOpening]

theorem cleanerFollows_blank : (p.blank restart l).CleanerFollows := by
  have state : (p.blank restart l).cleaner.state = .idle := rfl
  have rake : (p.blank restart l).cleaner.rake = false := rfl
  have timer : (p.blank restart l).cleaner.raking = none := rfl
  simp [Part.CleanerFollows, state, rake, timer]

end

/-- The moves of supervision, gate and cleaner carry what they keep; a reset begins from blocks that fit; no other move
touches them. -/
theorem mainsGateCleanerKept_commandMoves : CommandMoves MainsGateCleanerKept where
  refl _ := .untouched rfl rfl rfl rfl
  trans a b := ⟨fun h => b.mains (a.mains h), fun h => b.sluice (a.sluice h), fun h => b.cleaner (a.cleaner h)⟩
  supervision _ _ k := ⟨k, fun h => h, fun h => h⟩
  sluice _ _ _ k := ⟨fun h => h, k, fun h => h⟩
  cleaner _ _ k := ⟨fun h => h, fun h => h, k⟩
  estimator _ _ mark _ := .of_mark rfl rfl rfl mark
  blank p restart l :=
    ⟨fun _ => mainsFollows_blank p restart l, fun _ => sluiceFollows_blank p restart l,
      fun _ => cleanerFollows_blank p restart l⟩
  arbiter _ _ _ _ := .untouched rfl rfl rfl rfl
  record _ _ _ _ := .untouched rfl rfl rfl rfl
  roundDue _ _ := .untouched rfl rfl rfl rfl
  enter _ _ _ := .untouched rfl rfl rfl rfl
  starting _ _ := .untouched rfl rfl rfl rfl
  priming _ _ _ := .untouched rfl rfl rfl rfl
  resting _ _ := .untouched rfl rfl rfl rfl
  stopping _ _ := .untouched rfl rfl rfl rfl
  quiet _ _ _ _ := .untouched rfl rfl rfl rfl
  runLine _ _ _ := .untouched rfl rfl rfl rfl
  tripLine _ _ _ := .untouched rfl rfl rfl rfl
  primedLine _ _ _ := .untouched rfl rfl rfl rfl
  authority _ _ _ := .untouched rfl rfl rfl rfl
  allAuto _ := .untouched rfl rfl rfl rfl
  zeroLoads _ := .untouched rfl rfl rfl rfl
  running _ _ := .untouched rfl rfl rfl rfl
  runLoss _ _ _ _ := .untouched rfl rfl rfl rfl
  dwell _ _ _ _ := .untouched rfl rfl rfl rfl
  gauge _ _ := .untouched rfl rfl rfl rfl
  curves _ _ _ := .untouched rfl rfl rfl rfl
  dispatcher _ _ := .untouched rfl rfl rfl rfl
  freeCount _ _ := .untouched rfl rfl rfl rfl
  budget _ _ _ := .untouched rfl rfl rfl rfl
  store _ _ := .untouched rfl rfl rfl rfl
  planClock _ _ _ _ := .untouched rfl rfl rfl rfl
  linkAside _ _ _ := .untouched rfl rfl rfl rfl
  events _ _ _ := .untouched rfl rfl rfl rfl
  config _ _ _ _ _ := .untouched rfl rfl rfl rfl
  link _ _ := .untouched rfl rfl rfl rfl

end Sys2Proof.Machine

open Sys2Proof Sys2Proof.Machine in
/-- Settles O7: every move of a command keeps the three invariants, and a reset begins where they hold. -/
theorem mainsSluiceCleanerFollow : Obligations.MainsSluiceCleanerFollow :=
  ⟨fun s t h e => (mainsGateCleanerKept_commandMoves.step s t e).mains h,
    fun s t h e => (mainsGateCleanerKept_commandMoves.step s t e).sluice h,
    fun s t h e => (mainsGateCleanerKept_commandMoves.step s t e).cleaner h⟩
end

section
/-! The inflow at the expiry of the history timer, and the demand stages of an evaluation (chapters 4 and 5): O29,
O32. -/

namespace Sys2Proof.Machine

/-! ### Clamps and quotients -/

/-- What the clamp of inflow and demand leaves fits 0 to 65,535 (R65, R67). -/
theorem toNat_clampInt_word_le (n : Int) : (clampInt 0 65535 n).toNat ≤ 65535 := by
  unfold clampInt; omega

theorem toNat_clampInt_word (n : Int) : ((clampInt 0 65535 n).toNat : Int) = max 0 (min 65535 n) := by
  unfold clampInt; omega

theorem quotOrFree_of_pos (free : Int → Int) (n : Int) {d : Int} (h : 0 < d) :
    quotOrFree free n d = Int.tdiv n d := if_neg h.ne'

/-! ### The history ring and its window (R62 to R64) -/

theorem appendRing_eq (ring : List HistoryRecord) (r : HistoryRecord) :
    appendRing ring r = (if ring.length < 16 then ring else ring.drop 1) ++ [r] := by
  unfold appendRing
  by_cases h : ring.length < 16
  · rw [if_pos h, if_neg (Nat.not_le.mpr h)]
  · rw [if_neg h, if_pos (Nat.not_lt.mp h), List.drop_one]

theorem windowUsable_iff (ring : List HistoryRecord) (n : Nat) :
    windowUsable ring n = true ↔ n + 1 ≤ ring.length
      ∧ ∀ r ∈ ring.drop (ring.length - (n + 1)), r.level.isSome = true ∧ r.closedThroughout = true := by
  simp [windowUsable, newestRecords, HistoryRecord.usable]

/-! ### State and inflow after an append (R64, R65) -/

section
variable (st : StationRecord) (e : Estimator)

/-- Only state and inflow are brought up to date. -/
theorem updated_kept :
    (e.updated st).ring = e.ring ∧ (e.updated st).intervalVolume = e.intervalVolume
      ∧ (e.updated st).closedThroughout = e.closedThroughout ∧ (e.updated st).timer = e.timer := by
  unfold Estimator.updated
  split <;> exact ⟨rfl, rfl, rfl, rfl⟩

variable {st e}

theorem updated_of_usable (h : windowUsable e.ring st.window = true) :
    e.updated st
      = { e with
          state := .active
          inflow :=
            (inflowOf st.area st.window st.interval (newestRecords e.ring (st.window + 1))).getD e.inflow } :=
  if_pos h

/-- Without a usable window the inflow is kept; WARMING stays, ACTIVE becomes HELD. -/
theorem updated_of_unusable (h : ¬windowUsable e.ring st.window = true) :
    e.updated st = { e with state := if e.state = .warming then .warming else .held } := by
  unfold Estimator.updated
  rw [if_neg h]
  cases e.state <;> rfl

end

/-- The estimator with the closing interval's record appended and a new interval begun (R62), state and inflow still as
they were. -/
def Part.intervalBegun (p : Part) : Estimator :=
  { p.estimator with
    ring := appendRing p.estimator.ring p.historyRecord
    intervalVolume := 0
    closedThroughout := p.sluiceClosed
    timer := p.startTimer p.config.station.interval }

theorem closeInterval_eq (p : Part) :
    p.closeInterval = { p with estimator := p.intervalBegun.updated p.config.station } := rfl

theorem inflowOf_le {area n interval x : Nat} {rs : List HistoryRecord} (h : inflowOf area n interval rs = some x) :
    x ≤ 65535 := by
  unfold inflowOf at h
  split at h
  · cases h
  · split at h
    · cases h
      exact toNat_clampInt_word_le _
    · cases h

/-- The inflow of a window from its oldest to its newest record (R65). -/
theorem inflowOf_eq {area n interval : Nat} {oldest newest : HistoryRecord} {later : List HistoryRecord}
    {first last : Int} (pos : 0 < n * interval) (ends : later.getLast? = some newest)
    (hfirst : oldest.level = some first) (hlast : newest.level = some last) :
    ∃ x : Nat, inflowOf area n interval (oldest :: later) = some x
      ∧ (x : Int)
        = max 0 (min 65535
            (Int.tdiv ((area : Int) * (last - first) + ((later.map (·.volume)).sum : Nat))
              ((n : Int) * interval))) := by
  have newestLevel : (later.getLastD oldest).level = some last := by
    rw [List.getLastD_eq_getLast?, ends]
    exact hlast
  have divisor : (0 : Int) < (n : Int) * interval := by exact_mod_cast pos
  refine ⟨_, by simp only [inflowOf, hfirst, newestLevel]; rfl, ?_⟩
  rw [toNat_clampInt_word, Nat.cast_mul, quotOrFree_of_pos _ _ divisor, volumeSum]

end Sys2Proof.Machine

open Sys2Proof Sys2Proof.Machine in
/-- Settles O29: the new interval begun, then state and inflow by whether the window is usable. -/
theorem historyTimerClosesInterval : Obligations.HistoryTimerClosesInterval := by
  intro s p st closing ring window usable
  have ringEq : p.intervalBegun.ring = ring := appendRing_eq _ _
  have usableIff : windowUsable p.intervalBegun.ring st.window = true ↔ usable := by
    rw [ringEq]
    exact windowUsable_iff ring st.window
  obtain ⟨keptRing, keptVolume, keptMark, keptTimer⟩ := updated_kept st p.intervalBegun
  refine ⟨p.intervalBegun.updated st, next_withPart s (closeInterval_eq p), keptRing.trans ringEq, keptVolume, ?mark,
    keptTimer, fun h => ?active, fun h => ?held, fun h bound => ?bounded,
    fun h oldest newest later first last pos hw ends hfirst hlast => ?inflow⟩
  case mark =>
    rw [keptMark]
    exact beq_iff_eq
  case active => rw [updated_of_usable (usableIff.mpr h)]
  case held =>
    rw [updated_of_unusable (mt usableIff.mp h)]
    exact ⟨rfl, rfl⟩
  case bounded =>
    rw [updated_of_usable (usableIff.mpr h)]
    cases hx : inflowOf st.area st.window st.interval (newestRecords p.intervalBegun.ring (st.window + 1)) with
    | none => exact bound
    | some x => exact inflowOf_le hx
  case inflow =>
    obtain ⟨x, hx, value⟩ := inflowOf_eq (area := st.area) pos ends hfirst hlast
    have newestEq : newestRecords p.intervalBegun.ring (st.window + 1) = oldest :: later := by
      rw [ringEq]
      exact hw
    rw [updated_of_usable (usableIff.mpr h), newestEq, hx]
    exact value

namespace Sys2Proof.Machine

/-! ### The demand (R67) -/

section
variable (p : Part) (level : Int)

/-- The demand that stage 7 forms at an inner level (R67, R81). -/
def Part.demandAt : Nat :=
  demandOf p.estimator.inflow p.config.station.area p.config.station.drawdown level p.plan.target

theorem demandAt_le : p.demandAt level ≤ 65535 := toNat_clampInt_word_le _

theorem demandAt_eq (h : 0 < p.config.station.drawdown) :
    (p.demandAt level : Int)
      = max 0 (min 65535
          (p.estimator.inflow
            + Int.tdiv ((p.config.station.area : Int) * (level - p.plan.target)) p.config.station.drawdown)) := by
  rw [Part.demandAt, demandOf, toNat_clampInt_word, quotOrFree_of_pos _ _ (by exact_mod_cast h)]

end

/-! ### The tests of stages 6 and 7 (R80 to R84) -/

section
variable (p : Part)

/-- The part with a demand kept (R81). -/
def Part.withDemand (p : Part) (demand : Nat) : Part := { p with dispatcher.demand := demand }

theorem isDispatchEntry_eq :
    p.isDispatchEntry
      = fun e => decide (e.origin = .dispatch ∧ (p.unit e.unit).authority = .auto) := by
  funext e
  simp [Part.isDispatchEntry, Bool.beq_eq_decide_eq]

theorem stopCandidate_eq :
    p.stopCandidate
      = p.dispatcher.startOrder.reverse.find? fun u =>
          decide ((p.unit u).authority = .auto ∧ (p.unit u).state = .running
            ∧ (p.unit u).minRunElapsed = true) := by
  have stoppable : p.stoppable = fun u =>
      decide ((p.unit u).authority = .auto ∧ (p.unit u).state = .running
        ∧ (p.unit u).minRunElapsed = true) := by
    funext u
    simp [Part.stoppable, Part.autoRunning, Bool.beq_eq_decide_eq, Bool.and_assoc]
  rw [← stoppable]
  rfl

theorem suppliedFlow_eq :
    p.suppliedFlow
      = p.candidateFlow .u1 + p.candidateFlow .u2 + p.candidateFlow .u3 + p.candidateFlow .u4
        + p.candidateFlow .u5 + p.candidateFlow .u6 := by
  simp [Part.suppliedFlow, Part.candidateFlow, UnitNo.all, Nat.add_assoc]

theorem dispatchWaits_iff : p.dispatchWaits = true ↔ ∃ e ∈ p.arbiter.queue, p.isDispatchEntry e = true := by
  simp [Part.dispatchWaits]

theorem startTest_iff (snap : Snapshot) (level : Int) (demand : Nat) :
    p.startTest snap level demand = true
      ↔ p.plan.target < level ∧ p.suppliedFlow + p.config.station.hysteresis < demand
        ∧ ¬p.dispatchWaits = true ∧ snap.rack = .clear ∧ p.sluice.state = .closed := by
  simp [Part.startTest, Part.sluiceClosed, and_assoc]

theorem withdrawTest_iff (demand : Nat) :
    p.withdrawTest demand = true ↔ p.dispatchWaits = true ∧ demand ≤ p.suppliedFlow := by
  simp [Part.withdrawTest]

theorem stopTest_iff (demand : Nat) (u : UnitNo) :
    p.stopTest demand u = true
      ↔ demand + p.config.station.hysteresis + p.candidateFlow u ≤ p.suppliedFlow := by
  simp [Part.stopTest]

/-- Stage 7 keeps the demand and takes the act of the first test that holds (R81); no test reads the demand kept. -/
theorem demandStage_eq (snap : Snapshot) (level : Int) :
    p.demandStage snap level
      = if p.startTest snap level (p.demandAt level) then
          enqueueFirst p.dispatcher.startOrder (p.withDemand (p.demandAt level))
        else if p.withdrawTest (p.demandAt level) then (p.withDemand (p.demandAt level)).withdrawNewest
        else
          (p.withDemand (p.demandAt level)).stopSome (p.stopCandidate.filter (p.stopTest (p.demandAt level)))
            .dispatch := rfl

/-- The newest DISPATCH entry leaves, its unit IDLE, with a check of a new head (R83, R98). -/
theorem withdrawNewest_of_newest {e : QueueEntry}
    (h : (p.arbiter.queue.filter p.isDispatchEntry).getLast? = some e) :
    p.withdrawNewest = ((p.dropEntry e.unit).enterUnit e.unit .idle).checkIf (p.headIs e.unit) := by
  simp only [Part.withdrawNewest, h]

/-- A grant check is taken where there was a head and it meets the test. -/
theorem checkIf_getD (head : Option Bool) :
    p.checkIf (head.getD false) = if head = some true then p.grantCheck else p := by
  rcases head with _ | _ | _ <;> rfl

/-- The withdrawal of stage 6 (R80). -/
theorem withdrawAll_eq :
    p.withdrawAll
      = Part.checkIf
          { p with
            arbiter.queue := p.arbiter.queue.filter fun e => !p.isDispatchEntry e
            units := Six.ofFn fun u =>
              if p.arbiter.queue.any fun e => p.isDispatchEntry e && e.unit == u then
                PumpUnit.enter (p.unitRecord u).outlet .idle (p.unit u)
              else p.unit u }
          ((p.arbiter.queue.head?.map p.isDispatchEntry).getD false) := by
  rw [Part.withdrawAll, idleUnits_eq]
  simp only [List.any_filter]
  rfl

end

/-! ### Stages 6 and 7 (R80, R81) -/

section
variable (p : Part) (o : StopOrigin)

theorem stopSome_some (u : UnitNo) : p.stopSome (some u) o = p.stopOrder u o := rfl

theorem stopSome_none : p.stopSome none o = p := rfl

end

theorem demandStageActs : Rules.DemandStageActs := by
  intro p snap level
  refine ⟨p.demandAt level, ?_⟩
  intro st q flow supplied isDispatch waits starts withdraws candidate
  have entry : p.isDispatchEntry = isDispatch := isDispatchEntry_eq p
  have flows : p.suppliedFlow = supplied := suppliedFlow_eq p
  have waitsIff : p.dispatchWaits = true ↔ waits := by rw [dispatchWaits_iff, entry]
  have startsIff : p.startTest snap level (p.demandAt level) = true ↔ starts := by
    rw [startTest_iff, flows, waitsIff]
  have withdrawsIff : p.withdrawTest (p.demandAt level) = true ↔ withdraws := by
    rw [withdrawTest_iff, flows, waitsIff]
  have candidateEq : p.stopCandidate = candidate := stopCandidate_eq p
  have stage := demandStage_eq p snap level
  have stopStage (ns : ¬starts) (nw : ¬withdraws) :
      p.demandStage snap level = q.stopSome (candidate.filter (p.stopTest (p.demandAt level))) .dispatch := by
    rw [stage, if_neg (mt startsIff.mp ns), if_neg (mt withdrawsIff.mp nw), candidateEq]
    rfl
  refine ⟨demandAt_le p level, demandAt_eq p level, fun h => ?start, fun ns h e newest => ?withdraw,
    fun ns nw u hu => ⟨fun h => ?stop, fun h => ?keep⟩, fun ns nw hu => ?none⟩
  case start =>
    rw [stage, if_pos (startsIff.mpr h)]
    rfl
  case withdraw =>
    rw [stage, if_neg (mt startsIff.mp ns), if_pos (withdrawsIff.mpr h)]
    exact withdrawNewest_of_newest q (e := e) (entry ▸ newest)
  case stop =>
    have passes : p.stopTest (p.demandAt level) u = true := (stopTest_iff p _ u).mpr (flows ▸ h)
    rw [stopStage ns nw, hu, Option.filter_some, if_pos passes, stopSome_some]
  case keep =>
    have fails : ¬p.stopTest (p.demandAt level) u = true :=
      mt (stopTest_iff p _ u).mp (flows ▸ Nat.not_le.mpr h)
    rw [stopStage ns nw, hu, Option.filter_some, if_neg fails, stopSome_none]
  case none =>
    rw [stopStage ns nw, hu, Option.filter_none, stopSome_none]

theorem drawdownWithdrawsAndStops : Rules.DrawdownWithdrawsAndStops := by
  intro p isDispatch kept idled q candidate
  have entry : p.isDispatchEntry = isDispatch := isDispatchEntry_eq p
  have withdrawn : p.withdrawAll = q := by rw [withdrawAll_eq, entry, checkIf_getD]
  have stage : p.drawdownStage = q.stopSome candidate .dispatch := by
    have candidateEq : q.stopCandidate = candidate := stopCandidate_eq q
    rw [Part.drawdownStage, withdrawn, candidateEq]
  refine ⟨fun u hu => ?_, fun hu => ?_⟩
  · rw [stage, hu, stopSome_some]
  · rw [stage, hu, stopSome_none]

end Sys2Proof.Machine

open Sys2Proof Sys2Proof.Machine in
/-- Settles O32, from the tests of stage 7 in their order and the withdrawal of stage 6. -/
theorem demandAndDrawdownStages : Obligations.DemandAndDrawdownStages :=
  ⟨demandStageActs, drawdownWithdrawsAndStops⟩
end

section
/-! The ranking and its walks, the loads and their re-estimation, and the stages of an evaluation (chapters 5 and 6):
O30, O31, O36. -/

namespace Sys2Proof.Machine

/-! ### Committed load (R107, R116) -/

section
variable {p : Part}

theorem sumLoads_of_same (h : p.arbiter.committed = p.reservedSum) : p.sumLoads = p := by
  rw [Part.sumLoads, ← h]

theorem loadsFell_of_fall (h : p.reservedSum < p.arbiter.committed) :
    p.loadsFell = p.sumLoads.shedOver.grantCheck := if_pos h

theorem loadsFell_of_same (h : p.arbiter.committed = p.reservedSum) : p.loadsFell = p :=
  (if_neg h.not_gt).trans (sumLoads_of_same h)

theorem loadsMoved_of_rise (h : p.arbiter.committed < p.reservedSum) : p.loadsMoved = p.sumLoads.shedTest := if_pos h

theorem loadsMoved_of_noRise (h : p.reservedSum ≤ p.arbiter.committed) : p.loadsMoved = p.loadsFell :=
  if_neg (Nat.not_lt.mpr h)

/-- A shed ends once the budget covers the committed load (R116). -/
theorem shedOver_of_covered (h : p.arbiter.shed = .shedding) (le : p.arbiter.committed ≤ p.arbiter.effective) :
    p.shedOver = { p with arbiter := { p.arbiter with shed := .normal, shedDelay := none } } :=
  if_pos (by simp [h, le])

theorem shedOver_of_above (h : p.arbiter.effective < p.arbiter.committed) : p.shedOver = p :=
  if_neg (by simp [Nat.not_le.mpr h])

end

theorem committedLoadFollows : Rules.CommittedLoadFollows := by
  intro p sum q
  refine ⟨fun fall => ?fall, loadsMoved_of_rise, fun same => ?same, shedOver_of_covered, fun h => ?noEnd⟩
  case fall =>
    have fell : p.loadsFell = q.shedOver.grantCheck := loadsFell_of_fall fall
    exact ⟨(loadsMoved_of_noRise (Nat.le_of_lt fall)).trans fell, fell⟩
  case same =>
    have fell : p.loadsFell = p := loadsFell_of_same same
    exact ⟨(loadsMoved_of_noRise (Nat.le_of_eq same.symm)).trans fell, fell⟩
  case noEnd => exact h.elim shedOver_of_normal shedOver_of_above

/-! ### Re-estimation (R45, R75) -/

/-- Unit `u` with its load re-estimated, where it delivers (R45, R75). -/
def Part.reestimated (p : Part) (u : UnitNo) : PumpUnit :=
  { p.unit u with
    reserved :=
      if (p.unit u).delivering then if p.supervision.mains = .ok then p.power u else 0
      else (p.unit u).reserved }

theorem reestimateUnit_eq (p : Part) (u : UnitNo) :
    p.reestimateUnit u = { p with units := p.units.set u (p.reestimated u) } := by
  by_cases delivers : (p.unit u).delivering = true
  · simp only [Part.reestimateUnit, Part.reestimated, if_pos delivers, Part.setReserved, mainsGood_iff]
    rfl
  · have kept : p.units.set u (p.reestimated u) = p.units := by
      rw [Part.reestimated, if_neg delivers]
      exact Six.set_get_self p.units u
    rw [Part.reestimateUnit, if_neg delivers, kept]

theorem unit_reestimateUnit (p : Part) (u v : UnitNo) :
    (p.reestimateUnit u).unit v = if v = u then p.reestimated u else p.unit v := by
  rw [reestimateUnit_eq]
  exact Six.get_set _ _ _ _

/-- A second re-estimation of a unit finds the load of the first. -/
theorem reestimated_reestimateUnit (p : Part) (u v : UnitNo) :
    (p.reestimateUnit u).reestimated v = p.reestimated v := by
  have supervision : (p.reestimateUnit u).supervision = p.supervision := by rw [reestimateUnit_eq]
  have power : (p.reestimateUnit u).power v = p.power v := by rw [reestimateUnit_eq]; rfl
  rw [Part.reestimated, supervision, power, unit_reestimateUnit]
  by_cases same : v = u
  · subst same
    have delivering : (p.reestimated v).delivering = (p.unit v).delivering := rfl
    rw [if_pos rfl, delivering]
    by_cases delivers : (p.unit v).delivering = true <;> simp [Part.reestimated, delivers]
  · rw [if_neg same]
    rfl

/-- The units of a list re-estimated, each once, however often it is listed. -/
theorem reestimateUnits_eq (us : List UnitNo) (p : Part) :
    reestimateUnits us p
      = { p with units := Six.ofFn fun v => if v ∈ us then p.reestimated v else p.unit v } := by
  induction us generalizing p with
  | nil =>
    have same : (Six.ofFn fun v => p.unit v) = p.units := Six.ext_get fun v => Six.get_ofFn _ v
    simp [reestimateUnits, same]
  | cons u us ih =>
    have units (v : UnitNo) :
        (if v ∈ us then (p.reestimateUnit u).reestimated v else (p.reestimateUnit u).unit v)
          = if v ∈ u :: us then p.reestimated v else p.unit v := by
      rw [reestimated_reestimateUnit, unit_reestimateUnit]
      by_cases same : v = u
      · simp [same]
      · simp [same]
    rw [reestimateUnits, ih, funext units, reestimateUnit_eq]

theorem reestimationReachesArbiter : Rules.ReestimationReachesArbiter := by
  intro p
  have every (v : UnitNo) : v ∈ UnitNo.all := by cases v <;> decide
  have estimates : reestimateUnits UnitNo.all p = { p with units := Six.ofFn p.reestimated } := by
    simp only [reestimateUnits_eq, every, if_true]
  rw [Part.reestimate, estimates]
  rfl

end Sys2Proof.Machine

open Sys2Proof Sys2Proof.Machine in
/-- Settles O36, from the moves of committed load and the units' loads re-estimated in a row. -/
theorem loadsAndReestimation : Obligations.LoadsAndReestimation :=
  ⟨committedLoadFollows, reestimationReachesArbiter⟩

namespace Sys2Proof.Machine

/-! ### The ranking (R86, R87) -/

/-- Fewer run seconds, or as many and the lower number (R86). -/
def RunOrder (run : Six Nat) (a b : UnitNo) : Prop :=
  run.get a < run.get b ∨ (run.get a = run.get b ∧ a.number < b.number)

section RunOrder
variable {run : Six Nat} {a b c : UnitNo}

theorem RunOrder.trans (h : RunOrder run a b) (k : RunOrder run b c) : RunOrder run a c := by
  unfold RunOrder at *
  omega

theorem RunOrder.of_before (ascending : a.number < b.number) (h : runBefore run a b = true) : RunOrder run a b :=
  (Nat.lt_or_eq_of_le (of_decide_eq_true h)).imp id fun e => ⟨e, ascending⟩

theorem RunOrder.of_notBefore (h : runBefore run a b = false) : RunOrder run b a :=
  .inl (Nat.not_le.mp (of_decide_eq_false h))

end RunOrder

theorem startOrderOf_of_rotate {st : StationRecord} (h : st.rankingMode.isRotate = true) (run : Six Nat) :
    startOrderOf st run = sortBy (runBefore run) UnitNo.all := if_pos h

theorem startOrderOf_of_fixed {st : StationRecord} (h : st.rankingMode.isRotate = false) (run : Six Nat) :
    startOrderOf st run = unitsNumbered st.fixedOrder := if_neg (ne_true_of_eq_false h)

theorem rankingOrders : Rules.RankingOrders := by
  refine ⟨⟨rfl, rfl⟩, fun st run rotates => ?_, fun st run fixed => startOrderOf_of_fixed fixed run,
    fun p => ⟨rfl, rfl⟩⟩
  have ascending : UnitNo.all.Pairwise fun a b => a.number < b.number := by decide
  rw [startOrderOf_of_rotate rotates]
  exact ⟨sortBy_perm _, sortBy_pairwise (R := RunOrder run) (S := fun a b => a.number < b.number) RunOrder.trans
    RunOrder.of_before (fun _ => RunOrder.of_notBefore) ascending⟩

/-! ### The walks (R85) -/

section
variable {p : Part} {u : UnitNo}

theorem asksUnit_iff : p.asksUnit u = true ↔ (p.unit u).authority = .auto ∧ (p.unit u).state = .idle := by
  simp [Part.asksUnit]

theorem consultEnqueue_of_eligible (h : p.eligible u false = true) (o : QueueOrigin) :
    p.consultEnqueue u o = (p.consult u false).enqueue u o := if_pos h

theorem consultEnqueue_of_notEligible (h : p.eligible u false = false) (o : QueueOrigin) :
    p.consultEnqueue u o = p.consult u false := if_neg (ne_true_of_eq_false h)

variable (us : List UnitNo)

theorem enqueueAll_cons_of_asked (h : p.asksUnit u = true) :
    enqueueAll (u :: us) p = enqueueAll us (p.consultEnqueue u .dispatch) :=
  congrArg (enqueueAll us) (if_pos h)

theorem enqueueAll_cons_of_passed (h : ¬p.asksUnit u = true) : enqueueAll (u :: us) p = enqueueAll us p :=
  congrArg (enqueueAll us) (if_neg h)

theorem enqueueFirst_cons_of_passed (h : ¬p.asksUnit u = true) : enqueueFirst (u :: us) p = enqueueFirst us p :=
  if_neg h

theorem enqueueFirst_cons_of_eligible (h : p.asksUnit u = true) (eligible : p.eligible u false = true) :
    enqueueFirst (u :: us) p = p.consultEnqueue u .dispatch :=
  (if_pos h).trans (if_pos eligible)

theorem enqueueFirst_cons_of_notEligible (h : p.asksUnit u = true) (ineligible : p.eligible u false = false) :
    enqueueFirst (u :: us) p = enqueueFirst us (p.consult u false) :=
  (if_pos h).trans (if_neg (ne_true_of_eq_false ineligible))

end

theorem enqueueWalks : Rules.EnqueueWalks := by
  intro u us p asked joined
  have asks : p.asksUnit u = true ↔ asked := asksUnit_iff
  refine ⟨⟨rfl, rfl⟩, fun h => ?passed, fun h eligible => ?eligible, fun h ineligible => ?notEligible⟩
  case passed =>
    have passed : ¬p.asksUnit u = true := mt asks.mp h
    exact ⟨enqueueAll_cons_of_passed us passed, enqueueFirst_cons_of_passed us passed⟩
  case eligible =>
    have joins : p.consultEnqueue u .dispatch = joined := consultEnqueue_of_eligible eligible _
    rw [enqueueAll_cons_of_asked us (asks.mpr h), enqueueFirst_cons_of_eligible us (asks.mpr h) eligible, joins]
    exact ⟨rfl, rfl⟩
  case notEligible =>
    rw [enqueueAll_cons_of_asked us (asks.mpr h), consultEnqueue_of_notEligible ineligible]
    exact ⟨rfl, enqueueFirst_cons_of_notEligible us (asks.mpr h) ineligible⟩

end Sys2Proof.Machine

open Sys2Proof Sys2Proof.Machine in
/-- Settles O31, from the two rankings and the units that a walk comes to. -/
theorem rankingAndWalks : Obligations.RankingAndWalks := ⟨rankingOrders, enqueueWalks⟩

namespace Sys2Proof.Machine

/-! ### The stages of an evaluation (R74 to R81) -/

section
variable {p : Part} {snap : Snapshot}

theorem gated_iff (seen : p.gauge.snapshot = some snap) :
    p.gated = true ↔ p.supervision.mode = .held ∨ p.supervision.mains ≠ .ok ∨ p.dispatcher.hold = true
      ∨ snap.innerQuality = .init := by
  simp [Part.gated, Part.mainsGood, seen, or_assoc]

theorem stages_of_gated (h : p.reestimate.gated = true) : p.stages = p.reestimate := if_pos h

theorem stages_of_open (seen : p.reestimate.gauge.snapshot = some snap) (h : ¬p.reestimate.gated = true) :
    p.stages = p.reestimate.openStages snap := by
  rw [Part.stages, if_neg h, seen]

theorem autoRunning_iff (u : UnitNo) :
    p.autoRunning u = true ↔ (p.unit u).authority = .auto ∧ (p.unit u).state = .running := by
  simp [Part.autoRunning]

theorem autoRunning_eq (p : Part) :
    p.autoRunning = fun u => decide ((p.unit u).authority = .auto ∧ (p.unit u).state = .running) := by
  funext u
  rw [Bool.eq_iff_iff, autoRunning_iff, decide_eq_true_iff]

theorem openStages_of_trip (h : snap.rack = .trip) :
    p.openStages snap = p.stopSome (p.stopRanking.find? p.autoRunning) .rack := if_pos (beq_iff_eq.mpr h)

theorem openStages_of_noLevel (rack : snap.rack ≠ .trip) (h : snap.inner = none) :
    p.openStages snap = if p.gauge.effHigh then enqueueAll p.dispatcher.startOrder p else p := by
  rw [Part.openStages, if_neg (mt beq_iff_eq.mp rack), h]

theorem openStages_of_level (rack : snap.rack ≠ .trip) {level : Int} (h : snap.inner = some level) :
    p.openStages snap = p.levelStages snap level := by
  rw [Part.openStages, if_neg (mt beq_iff_eq.mp rack), h]

variable {level : Int}

theorem levelStages_of_high (h : p.config.station.highLevel ≤ level) :
    p.levelStages snap level = enqueueAll p.dispatcher.startOrder p := if_pos h

theorem levelStages_of_low (high : level < p.config.station.highLevel) (h : level ≤ p.plan.target - p.plan.band) :
    p.levelStages snap level = p.drawdownStage :=
  (if_neg (Int.not_le.mpr high)).trans (if_pos h)

theorem levelStages_of_between (high : level < p.config.station.highLevel)
    (h : p.plan.target - p.plan.band < level) : p.levelStages snap level = p.demandStage snap level :=
  (if_neg (Int.not_le.mpr high)).trans (if_neg (Int.not_le.mpr h))

end

end Sys2Proof.Machine

open Sys2Proof Sys2Proof.Machine in
/-- Settles O30: the gate by its four conditions, then the stages in their order. -/
theorem evaluationTakesFirstStage : Obligations.EvaluationTakesFirstStage := by
  intro cur s snap p st formed q order ends gated target seen
  have ends_of {r : Part} (h : formed.stages = r) : ends r := next_withPart s (congrArg (·.takeDueRound cur) h)
  have gate : q.gated = true ↔ gated := gated_iff seen
  have opened (free : ¬gated) : formed.stages = q.openStages snap := stages_of_open seen (mt gate.mp free)
  refine ⟨fun h => ends_of (stages_of_gated (gate.mpr h)), fun free trip => ?trip,
    fun free rack noLevel => ?noLevel, fun level free rack hlevel => ?level⟩
  case trip =>
    have stage : formed.stages = q.stopSome (q.stopRanking.find? q.autoRunning) .rack :=
      (opened free).trans (openStages_of_trip trip)
    refine ⟨fun u found => ends_of ?_, fun idle => ends_of ?_⟩
    · rw [← autoRunning_eq] at found
      rw [stage, found, stopSome_some]
    · have noneRuns : q.stopRanking.find? q.autoRunning = none := by
        refine List.find?_eq_none.mpr fun v hv runs => ?_
        obtain ⟨auto, running⟩ := (autoRunning_iff v).mp runs
        exact idle v hv auto running
      rw [stage, noneRuns, stopSome_none]
  case noLevel =>
    have stage : formed.stages = if q.gauge.effHigh then enqueueAll order q else q :=
      (opened free).trans (openStages_of_noLevel rack noLevel)
    exact ⟨fun high => ends_of (stage.trans (if_pos high)),
      fun low => ends_of (stage.trans (if_neg (ne_true_of_eq_false low)))⟩
  case level =>
    have stage : formed.stages = q.levelStages snap level := (opened free).trans (openStages_of_level rack hlevel)
    exact ⟨fun high => ends_of (stage.trans (levelStages_of_high high)),
      fun below low => ends_of (stage.trans (levelStages_of_low below low)),
      fun below above => ends_of (stage.trans (levelStages_of_between below above))⟩
end

section
/-! The gate: its decisions, its lines, its travel and its orders (chapter 7): O39, O40, O41. -/

namespace Sys2Proof.Machine

/-! ### Arrival (R120) -/

theorem atOpenLimit_iff (g : Sluice) : g.atOpenLimit = true ↔ g.atOpen = true ∧ g.atClosed = false := by
  simp [Sluice.atOpenLimit]

theorem atClosedLimit_iff (g : Sluice) : g.atClosedLimit = true ↔ g.atClosed = true ∧ g.atOpen = false := by
  simp [Sluice.atClosedLimit]

section
variable {p : Part}

/-- An opening gate at its open limit has arrived. -/
theorem testArrival_of_open (h : p.sluice.state = .opening) (limit : p.sluice.atOpenLimit = true) :
    p.testArrival = ((p.sluiceTo .opened).releaseDrive).record .sluiceOpened none p.travelSeconds := by
  simp only [Part.testArrival, h, if_pos limit]

/-- A closing gate at its closed limit has arrived. -/
theorem testArrival_of_closed (h : p.sluice.state = .closing) (limit : p.sluice.atClosedLimit = true) :
    p.testArrival
      = ((p.sluiceTo .closed).releaseDrive).record .sluiceClosed none
        (p.sluice.cause.map fun c => (c.code : Int)) := by
  simp only [Part.testArrival, h, if_pos limit]

/-- A gate on its way to a limit it does not stand at has not arrived, and a gate that does not travel cannot. -/
theorem testArrival_of_notThere (opens : p.sluice.state = .opening → ¬p.sluice.atOpenLimit = true)
    (closes : p.sluice.state = .closing → ¬p.sluice.atClosedLimit = true) : p.testArrival = p := by
  unfold Part.testArrival
  split
  · exact if_neg (opens ‹_›)
  · exact if_neg (closes ‹_›)
  all_goals rfl

end

/-! ### The gate closed (R123) -/

/-- The gate entering CLOSING under this cause, before its arrival is tested. -/
def Part.closing (p : Part) (cause : CloseCause) : Part :=
  { p with
    sluice :=
      { p.sluice with
        state := .closing
        cause := some cause
        driveOpen := false
        driveClose := p.mainsGood
        travel := if p.mainsGood then p.startTimer p.config.station.travelTimeout else none
        waiting := !p.mainsGood }
    estimator := { p.estimator with closedThroughout := false } }

theorem closeGate_eq (p : Part) (cause : CloseCause) : p.closeGate cause = (p.closing cause).testArrival := by
  unfold Part.closeGate Part.closing
  cases p.mainsGood <;> rfl

theorem gateClosed : Rules.GateClosed := by
  intro p cause travel driven closing closed
  have enters : p.closing cause = closing := rfl
  refine ⟨fun limit => ?_, fun away => ?_⟩
  · have there : closing.sluice.atClosedLimit = true := (atClosedLimit_iff _).mpr limit
    rw [closeGate_eq, enters, testArrival_of_closed rfl there]
    rfl
  · have notThere : ¬closing.sluice.atClosedLimit = true := mt (atClosedLimit_iff _).mp away
    rw [closeGate_eq, enters]
    exact testArrival_of_notThere nofun fun _ => notThere

/-! ### The decisions at a snapshot (R121, R122) -/

section
variable {p : Part} {snap : Snapshot}

theorem opensAt_iff :
    p.opensAt snap = true ↔ p.sluice.state = .closed ∧ p.sluice.mode = .auto ∧ snap.outerQuality = .ok
      ∧ p.plan.inhibit = false ∧ p.supervision.mains = .ok
      ∧ ∃ inner outer : Int, snap.inner = some inner ∧ snap.outer = some outer
        ∧ (p.config.station.openMargin : Int) ≤ inner - outer ∧ p.plan.target < inner := by
  unfold Part.opensAt
  cases snap.inner <;> cases snap.outer <;> simp [mainsGood_iff, and_assoc]

theorem closeCauseAt_of_keepClosed (kept : p.sluice.mode = .keepClosed) :
    p.closeCauseAt snap = some .keepClosed := if_pos (beq_iff_eq.mpr kept)

section
variable (auto : p.sluice.mode = .auto)
include auto

theorem closeCauseAt_of_inhibit (on : p.plan.inhibit = true) : p.closeCauseAt snap = some .inhibit := by
  simp [Part.closeCauseAt, auto, on]

variable (off : p.plan.inhibit = false)
include off

theorem closeCauseAt_of_noInner (absent : snap.inner = none) : p.closeCauseAt snap = some .innerAbsent := by
  simp [Part.closeCauseAt, auto, off, absent]

variable {inner : Int} (level : snap.inner = some inner)
include level

theorem closeCauseAt_of_outerNotOk (notOk : snap.outerQuality ≠ .ok) :
    p.closeCauseAt snap = some .outerNotOk := by
  simp [Part.closeCauseAt, auto, off, level, notOk]

variable (ok : snap.outerQuality = .ok)
include ok

theorem closeCauseAt_of_drawdown (low : inner ≤ p.plan.target - p.plan.band) :
    p.closeCauseAt snap = some .drawdown := by
  simp only [Part.closeCauseAt, auto, off, level, ok]
  exact if_pos low

variable {outer : Int} (outerLevel : snap.outer = some outer) (above : p.plan.target - p.plan.band < inner)
include outerLevel above

/-- Only the margin is left to close a gate above the drawdown level (R122). -/
theorem closeCauseAt_of_levels :
    p.closeCauseAt snap = if inner - outer < p.config.station.closeMargin then some .margin else none := by
  simp only [Part.closeCauseAt, auto, off, level, ok, outerLevel]
  exact if_neg (Int.not_le.mpr above)

end

theorem sluiceAtSnapshot_of_closed (h : p.sluice.state = .closed) :
    p.sluiceAtSnapshot snap = if p.opensAt snap then p.openGate else p := by
  simp only [Part.sluiceAtSnapshot, h]

/-- A gate that is open or opening is closed under the cause that the snapshot gives (R122). -/
theorem sluiceAtSnapshot_of_cause (h : p.sluice.state = .opened ∨ p.sluice.state = .opening) {cause : CloseCause}
    (due : p.closeCauseAt snap = some cause) : p.sluiceAtSnapshot snap = p.closeGate cause := by
  rcases h with h | h <;> simp only [Part.sluiceAtSnapshot, h, due]

theorem sluiceAtSnapshot_of_noCause (h : p.sluice.state = .opened ∨ p.sluice.state = .opening)
    (free : p.closeCauseAt snap = none) : p.sluiceAtSnapshot snap = p := by
  rcases h with h | h <;> simp only [Part.sluiceAtSnapshot, h, free]

/-- In CLOSING and in FAULT nothing is decided (R121, R122). -/
theorem sluiceAtSnapshot_of_undecided (h : p.sluice.state = .closing ∨ p.sluice.state = .fault) :
    p.sluiceAtSnapshot snap = p := by
  rcases h with h | h <;> simp only [Part.sluiceAtSnapshot, h]

end

theorem sluiceDecidesAtSnapshot : Rules.SluiceDecidesAtSnapshot := by
  intro p snap st opens opening
  have decides (shut : p.sluice.state = .closed) : p.opensAt snap = true ↔ opens :=
    opensAt_iff.trans (and_iff_right shut)
  refine ⟨fun shut open_ => ?_, fun shut stays => ?_, sluiceAtSnapshot_of_undecided, fun h =>
    ⟨fun kept => sluiceAtSnapshot_of_cause h (closeCauseAt_of_keepClosed kept), fun auto =>
      ⟨fun on => sluiceAtSnapshot_of_cause h (closeCauseAt_of_inhibit auto on), fun off =>
        ⟨fun absent => sluiceAtSnapshot_of_cause h (closeCauseAt_of_noInner auto off absent), fun inner level =>
          ⟨fun notOk => sluiceAtSnapshot_of_cause h (closeCauseAt_of_outerNotOk auto off level notOk), fun ok =>
            ⟨fun low => sluiceAtSnapshot_of_cause h (closeCauseAt_of_drawdown auto off level ok low),
              fun outer outerLevel above => ⟨fun near => ?_, fun wide => ?_⟩⟩⟩⟩⟩⟩⟩
  · rw [sluiceAtSnapshot_of_closed shut, if_pos ((decides shut).mpr open_)]
    rfl
  · rw [sluiceAtSnapshot_of_closed shut, if_neg (mt (decides shut).mp stays)]
  · exact sluiceAtSnapshot_of_cause h
      ((closeCauseAt_of_levels auto off level ok outerLevel above).trans (if_pos near))
  · exact sluiceAtSnapshot_of_noCause h
      ((closeCauseAt_of_levels auto off level ok outerLevel above).trans (if_neg (Int.not_lt.mpr wide)))

end Sys2Proof.Machine

open Sys2Proof Sys2Proof.Machine in
/-- Settles O39, from the gate closed and the decisions by the state of the gate. -/
theorem gateDecisions : Obligations.GateDecisions := ⟨gateClosed, sluiceDecidesAtSnapshot⟩

namespace Sys2Proof.Machine

/-! ### The limit lines (R120) -/

section
variable {p : Part}

theorem limitMoved_of_departure (h : p.sluice.state = .closed) :
    p.limitMoved true = (p.record .sluiceFault none (some 3)).closeGate .departure := by
  simp [Part.limitMoved, h]

/-- Only the closed line's release in CLOSED is a departure. -/
theorem limitMoved_of_noDeparture {leftClosed : Bool} (h : p.sluice.state ≠ .closed ∨ leftClosed = false) :
    p.limitMoved leftClosed = p.testArrival := by
  refine if_neg fun c => ?_
  obtain ⟨shut, left⟩ : p.sluice.state = .closed ∧ leftClosed = true := by simpa using c
  exact h.elim (· shut) fun stays => Bool.false_ne_true (stays.symm.trans left)

end

theorem limitLinesOfGate : Rules.LimitLinesOfGate := by
  refine ⟨?arrival, ?lines⟩
  case arrival =>
    intro p stopped
    refine ⟨fun opening on off => ?_, fun closing on off => ?_, fun h => ?_⟩
    · exact testArrival_of_open opening ((atOpenLimit_iff _).mpr ⟨on, off⟩)
    · exact testArrival_of_closed closing ((atClosedLimit_iff _).mpr ⟨on, off⟩)
    · refine testArrival_of_notThere (fun opening => ?_) fun closing => ?_
      · have away : p.sluice.atOpen = false ∨ p.sluice.atClosed = true := by simpa [opening] using h
        rcases away with off | on <;> simp [atOpenLimit_iff, *]
      · have away : p.sluice.atClosed = false ∨ p.sluice.atOpen = true := by simpa [closing] using h
        rcases away with off | on <;> simp [atClosedLimit_iff, *]
  case lines =>
    intro s p line
    refine ⟨fun off => ?_, fun on => ?_, fun off => ?_, fun on away => ?_, fun on shut => ?_⟩
    · exact next_withPart s ((if_neg (ne_true_of_eq_false off)).trans (limitMoved_of_noDeparture (.inr rfl)))
    · exact next_withPart s ((if_pos on).trans (limitMoved_of_noDeparture (.inr rfl)))
    · exact next_withPart s ((if_neg (ne_true_of_eq_false off)).trans (limitMoved_of_noDeparture (.inr rfl)))
    · exact next_withPart s ((if_pos on).trans (limitMoved_of_noDeparture (.inl away)))
    · exact next_withPart s ((if_pos on).trans (limitMoved_of_departure shut))

/-! ### The travel timeout and the mains (R124, R125) -/

theorem failedTravel_eq (st : SluiceState) : failedTravel st = if st = .opening then 1 else 2 := by
  cases st <;> rfl

section
variable {p : Part}

theorem sluiceMainsLost_of_opening (h : p.sluice.state = .opening) : p.sluiceMainsLost = p.closeGate .mains := by
  simp only [Part.sluiceMainsLost, h]

theorem sluiceMainsLost_of_closing (h : p.sluice.state = .closing) :
    p.sluiceMainsLost = if p.sluice.waiting then p else p.waitForMains := by
  simp only [Part.sluiceMainsLost, h]

/-- A gate that does not travel is not touched by a mains loss (R125). -/
theorem sluiceMainsLost_of_still
    (h : p.sluice.state = .closed ∨ p.sluice.state = .opened ∨ p.sluice.state = .fault) :
    p.sluiceMainsLost = p := by
  rcases h with h | h | h <;> simp only [Part.sluiceMainsLost, h]

theorem sluiceMainsOk_of_waiting (h : p.sluice.state = .closing) (waits : p.sluice.waiting = true) :
    p.sluiceMainsOk = p.driveClosed := if_pos (by simp [h, waits])

theorem sluiceMainsOk_of_notWaiting (h : p.sluice.state ≠ .closing ∨ p.sluice.waiting = false) :
    p.sluiceMainsOk = p := if_neg (by rcases h with h | h <;> simp [h])

end

theorem travelTimeoutAndMains : Rules.TravelTimeoutAndMains := by
  refine ⟨?timeout, ?mains⟩
  case timeout =>
    intro s p runs
    rw [← failedTravel_eq]
    exact next_withPart s (if_pos runs)
  case mains =>
    intro p waiting driven
    refine ⟨sluiceMainsLost_of_opening, fun closing runs => ?_, fun h => ?_, sluiceMainsOk_of_waiting,
      sluiceMainsOk_of_notWaiting⟩
    · exact (sluiceMainsLost_of_closing closing).trans (if_neg (ne_true_of_eq_false runs))
    · rcases h with ⟨closing, waits⟩ | still
      · exact (sluiceMainsLost_of_closing closing).trans (if_pos waits)
      · exact sluiceMainsLost_of_still still

end Sys2Proof.Machine

open Sys2Proof Sys2Proof.Machine in
/-- Settles O40, from the arrivals and the limit lines, and from the ends that timer and mains put to a travel. -/
theorem gateLinesAndTravel : Obligations.GateLinesAndTravel := ⟨limitLinesOfGate, travelTimeoutAndMains⟩

namespace Sys2Proof.Machine

/-! ### The orders to the gate (R126) -/

section
variable {p : Part}

theorem serveSluiceKeepClosed_of_open (h : p.sluice.state = .opened ∨ p.sluice.state = .opening) :
    serveSluiceKeepClosed p
      = (({ p with sluice.mode := .keepClosed } : Part).closeGate .order,
        (({ p with sluice.mode := .keepClosed } : Part).closeGate .order).sluiceAnswer) := by
  rcases h with h | h <;> simp only [serveSluiceKeepClosed, h]

theorem serveSluiceKeepClosed_elsewhere
    (h : p.sluice.state = .closed ∨ p.sluice.state = .closing ∨ p.sluice.state = .fault) :
    serveSluiceKeepClosed p
      = ({ p with sluice.mode := .keepClosed }, ({ p with sluice.mode := .keepClosed } : Part).sluiceAnswer) := by
  rcases h with h | h | h <;> simp only [serveSluiceKeepClosed, h]

theorem serveSluiceClear_of_fault (h : p.sluice.state = .fault) :
    serveSluiceClear p = (p.closeGate .timeoutClear, (p.closeGate .timeoutClear).sluiceAnswer) := by
  simp only [serveSluiceClear, h]

theorem serveSluiceClear_elsewhere (h : p.sluice.state ≠ .fault) : serveSluiceClear p = (p, .refusal .state) := by
  unfold serveSluiceClear
  split
  · exact absurd ‹_› h
  all_goals rfl

end

end Sys2Proof.Machine

open Sys2Proof Sys2Proof.Machine in
/-- Settles O41, by the state that the order meets. -/
theorem sluiceOrders : Obligations.SluiceOrders := by
  intro tag s receives p replied kept
  have row {k : RequestKind} {f : Part → Part × Response} {q : Part} {r : Response} (served : f p = (q, r)) :
      (s.act (request k tag f)) = .next (s.withPart (q.reply k.byte tag r)) :=
    next_withPart s (request_of_receives receives served)
  exact ⟨row rfl, fun h => row (serveSluiceKeepClosed_of_open h), fun h => row (serveSluiceKeepClosed_elsewhere h),
    fun h => row (serveSluiceClear_of_fault h), fun h => row (serveSluiceClear_elsewhere h)⟩
end

section
/-! The rack cleaner (chapter 7): O42. -/

namespace Sys2Proof.Machine

/-! ### When a rake starts (R129) -/

section
variable {p : Part}

theorem mayRake_iff : p.mayRake = true ↔ p.cleaner.state = .idle ∧ p.supervision.mains = .ok := by
  simp [Part.mayRake, mainsGood_iff]

theorem fouledAt_iff {snap : Snapshot} :
    p.fouledAt snap = true ↔ ∃ loss : Int, snap.rackLoss = some loss
      ∧ (p.config.station.cleanThreshold : Int) ≤ loss := by
  unfold Part.fouledAt
  cases snap.rackLoss <;> simp

/-- What the part takes in as a telegram arrives leaves the cleaner alone (R179). -/
@[simp] theorem cleaner_arrived (p : Part) : p.arrived.cleaner = p.cleaner := by
  have resumed (q : Part) : q.resumeSupervision.cleaner = q.cleaner := by
    unfold Part.resumeSupervision
    split <;> rfl
  exact resumed (p.modLink Link.completed)

theorem mayRake_arrived (p : Part) : p.arrived.mayRake = p.mayRake := by
  simp only [Part.mayRake, Part.mainsGood, cleaner_arrived, (ArbiterAside.arrived p).mains]

end

theorem rakeStarts : Rules.RakeStarts := by
  intro p may raking again
  have mayRake : p.mayRake = true ↔ may := mayRake_iff
  refine ⟨?snapshot, ?expiry, ?order⟩
  case snapshot =>
    intro snap fouled
    have starts : (p.mayRake && p.cleaner.pause.isNone && p.fouledAt snap) = true
        ↔ may ∧ p.cleaner.pause = none ∧ fouled := by
      rw [Bool.and_eq_true, Bool.and_eq_true, mayRake, Option.isNone_iff_eq_none, fouledAt_iff, and_assoc]
    exact ⟨fun m noPause f => if_pos (starts.mpr ⟨m, noPause, f⟩), fun h => if_neg (mt starts.mp h)⟩
  case expiry =>
    rintro s rfl runs
    exact ⟨fun m => next_withPart s ((if_pos runs).trans (if_pos (mayRake.mpr m))),
      fun m => next_withPart s ((if_pos runs).trans (if_neg (mt mayRake.mp m)))⟩
  case order =>
    rintro tag s rfl receives
    have mayThen : s.part.arrived.mayRake = true ↔ may := by rw [mayRake_arrived, mayRake]
    exact ⟨fun m => next_withPart s (request_of_receives receives (if_pos (mayThen.mpr m))),
      fun m => next_withPart s (request_of_receives receives (if_neg (mt mayThen.mp m)))⟩

/-! ### How a rake ends (R130 to R132) -/

section
variable {p : Part}

theorem serveRakeClear_of_fault (h : p.cleaner.state = .fault) :
    serveRakeClear p = (p.cleanerIdle, p.cleanerIdle.rakeAnswer) := by
  simp only [serveRakeClear, h]

theorem serveRakeClear_elsewhere (h : p.cleaner.state ≠ .fault) : serveRakeClear p = (p, .refusal .state) := by
  unfold serveRakeClear
  split
  · exact absurd ‹_› h
  all_goals rfl

end

theorem rakeEnds : Rules.RakeEnds := by
  intro s p interval idle cause
  have still : p.arrived.cleaner.state = p.cleaner.state := by rw [cleaner_arrived]
  refine ⟨fun off rakes => ?_, fun off rests => ?_, rfl, fun runs => next_withPart s (if_pos runs), rfl,
    fun rakes => if_pos (beq_iff_eq.mpr rakes), fun rests => if_neg (mt beq_iff_eq.mp rests),
    fun tag receives => ⟨fun failed => ?_, fun sound => ?_⟩⟩
  · exact next_withPart s ((if_neg (ne_true_of_eq_false off)).trans (if_pos (beq_iff_eq.mpr rakes)))
  · exact next_withPart s ((if_neg (ne_true_of_eq_false off)).trans (if_neg (mt beq_iff_eq.mp rests)))
  · exact next_withPart s (request_of_receives receives (serveRakeClear_of_fault (still.trans failed)))
  · exact next_withPart s (request_of_receives receives (serveRakeClear_elsewhere (still ▸ sound)))

end Sys2Proof.Machine

open Sys2Proof Sys2Proof.Machine in
/-- Settles O42, from the starts and the ends of a rake. -/
theorem rackCleaner : Obligations.RackCleaner := ⟨rakeStarts, rakeEnds⟩
end

section
/-! The plan in order at every step (chapter 8): O8. -/

namespace Sys2Proof.Machine

/-- `q` keeps what `p` has of the plan: short, in rising time, later than the clock, its state following it (R138). -/
def PlanOrderKept (p q : Part) : Prop := p.PlanOrdered → q.PlanOrdered

/-- A move that touches neither the plan nor the station clock. -/
theorem PlanOrderKept.untouched {p q : Part} (hp : q.plan = p.plan) (hc : q.accounting.clock = p.accounting.clock) :
    PlanOrderKept p q := fun h => by
  rw [Part.PlanOrdered, hp, hc]
  exact h

/-- A reset empties the plan (R146), whatever the clock then shows. -/
theorem planOrdered_blank (p : Part) (restart : Bool) (l : FieldLines) : (p.blank restart l).PlanOrdered := by
  have entries : (p.blank restart l).plan.entries = [] := rfl
  have state : (p.blank restart l).plan.planState = .empty := rfl
  simp [Part.PlanOrdered, entries, state]

/-- The moves of plan and clock carry what they keep of the plan: an append takes the tests of PLAN_ADD, and where the
clock moves, by a second or by SET_CLOCK, at its wrap too, the activation removes what is then due. A reset empties the
plan, and no other move touches plan or clock. -/
theorem planOrderKept_commandMoves : CommandMoves PlanOrderKept where
  refl _ := .untouched rfl rfl
  trans a b h := b (a h)
  planClock _ _ _ k := k
  blank p restart l _ := planOrdered_blank p restart l
  arbiter _ _ _ _ := .untouched rfl rfl
  record _ _ _ _ := .untouched rfl rfl
  roundDue _ _ := .untouched rfl rfl
  enter _ _ _ := .untouched rfl rfl
  starting _ _ := .untouched rfl rfl
  priming _ _ _ := .untouched rfl rfl
  resting _ _ := .untouched rfl rfl
  stopping _ _ := .untouched rfl rfl
  quiet _ _ _ _ := .untouched rfl rfl
  runLine _ _ _ := .untouched rfl rfl
  tripLine _ _ _ := .untouched rfl rfl
  primedLine _ _ _ := .untouched rfl rfl
  authority _ _ _ := .untouched rfl rfl
  allAuto _ := .untouched rfl rfl
  zeroLoads _ := .untouched rfl rfl
  running _ _ := .untouched rfl rfl
  runLoss _ _ _ _ := .untouched rfl rfl
  dwell _ _ _ _ := .untouched rfl rfl
  gauge _ _ := .untouched rfl rfl
  curves _ _ _ := .untouched rfl rfl
  dispatcher _ _ := .untouched rfl rfl
  freeCount _ _ := .untouched rfl rfl
  budget _ _ _ := .untouched rfl rfl
  store _ _ := .untouched rfl rfl
  sluice _ _ _ _ := .untouched rfl rfl
  estimator _ _ _ _ := .untouched rfl rfl
  cleaner _ _ _ := .untouched rfl rfl
  supervision _ _ _ := .untouched rfl rfl
  linkAside _ _ _ := .untouched rfl rfl
  events _ _ _ := .untouched rfl rfl
  config _ _ _ _ _ := .untouched rfl rfl
  link _ _ := .untouched rfl rfl

end Sys2Proof.Machine

open Sys2Proof Sys2Proof.Machine in
/-- Settles O8: every move of a command keeps the plan in order, and a reset empties it. -/
theorem planStaysOrdered : Obligations.PlanStaysOrdered :=
  fun s t h e => planOrderKept_commandMoves.step s t e h
end

section
/-! The targets in force, and the requests of the plan (chapter 8): O43, O44. -/

namespace Sys2Proof.Machine

/-! ### The clamp of band and target (R135) -/

/-- A clamp into a range that is not empty. -/
theorem clampRange_of_le {lo hi : Int} (h : lo ≤ hi) (n : Int) : clampRange lo hi n = max lo (min hi n) :=
  if_neg (not_lt.mpr h)

section
variable {st : StationRecord} (wide : 40 ≤ st.highLevel - st.stopLevel)
include wide

/-- In a window of 40 mm or more there is room for the least band, and for the greatest band twice. -/
theorem greatestBand_bounds :
    20 ≤ greatestBand st ∧ 2 * greatestBand st ≤ st.highLevel - st.stopLevel := by
  unfold greatestBand quotToZero
  rw [Int.tdiv_eq_ediv_of_nonneg (by omega)]
  omega

theorem clampBand_of_wide (band : Nat) : (clampBand st band : Int) = max 20 (min (greatestBand st) band) := by
  rw [clampBand, clampRange_of_le (greatestBand_bounds wide).1]
  omega

theorem clampTarget_of_wide (band : Nat) (target : Int) :
    clampTarget st (clampBand st band) target
      = max (st.stopLevel + clampBand st band) (min (st.highLevel - clampBand st band) target) := by
  have bounds := greatestBand_bounds wide
  have clamped := clampBand_of_wide wide band
  exact clampRange_of_le (by omega) target

end

/-- The band is clamped first, the target with the band just applied (R135). -/
theorem targets_of_wide (st : StationRecord) (band : Nat) (target : Int)
    (wide : 40 ≤ st.highLevel - st.stopLevel) :
    (clampBand st band : Int) = max 20 (min (min 2000 (Int.tdiv (st.highLevel - st.stopLevel) 2)) band)
      ∧ clampTarget st (clampBand st band) target
        = max (st.stopLevel + clampBand st band) (min (st.highLevel - clampBand st band) target) :=
  ⟨clampBand_of_wide wide band, clampTarget_of_wide wide band target⟩

theorem setTargetClamps : Rules.SetTargetClamps := by
  intro tag target band s receives p st
  exact ⟨clampBand st band.toNat, _, targets_of_wide st band.toNat target.toInt,
    next_withPart s (request_of_receives receives rfl)⟩

/-! ### Activation (R142, R143) -/

theorem due_iff (clock : Word32) (e : PlanEntry) : e.due clock = true ↔ e.time.toNat ≤ clock.toNat :=
  decide_eq_true_iff

/-- Where the entries up to some place are due and the next is not, those are the ones that leave. -/
theorem dueEntries_append {clock : Word32} {gone waiting : List PlanEntry}
    (due : ∀ d ∈ gone, d.time.toNat ≤ clock.toNat)
    (later : ∀ d : PlanEntry, waiting.head? = some d → clock.toNat < d.time.toNat) :
    (gone ++ waiting).takeWhile (PlanEntry.due clock) = gone
      ∧ (gone ++ waiting).dropWhile (PlanEntry.due clock) = waiting := by
  have allDue : ∀ d ∈ gone, d.due clock = true := fun d hd => (due_iff clock d).mpr (due d hd)
  rw [List.takeWhile_append_of_pos allDue, List.dropWhile_append_of_pos allDue]
  cases waiting with
  | nil => simp
  | cons d ds =>
    have notDue : ¬d.due clock = true := by
      rw [due_iff]
      exact (later d rfl).not_ge
    simp [List.takeWhile_cons_of_neg notDue, List.dropWhile_cons_of_neg notDue]

section
variable {p : Part}

theorem activate_of_noneDue
    (later : ∀ e : PlanEntry, p.plan.entries.head? = some e → p.accounting.clock.toNat < e.time.toNat) :
    p.activate = p := by
  have nothingDue : p.plan.entries.takeWhile (PlanEntry.due p.accounting.clock) = [] :=
    (dueEntries_append (gone := []) (by simp) later).1
  simp [Part.activate, nothingDue]

theorem activate_of_due {skipped waiting : List PlanEntry} {e : PlanEntry}
    (entries : p.plan.entries = skipped ++ e :: waiting)
    (due : ∀ d ∈ skipped ++ [e], d.time.toNat ≤ p.accounting.clock.toNat)
    (later : ∀ d : PlanEntry, waiting.head? = some d → p.accounting.clock.toNat < d.time.toNat) :
    p.activate = (((p.applyEntry e).setEntries waiting).recordActivation (skipped.length + 1)).reformBudget := by
  obtain ⟨gone, left⟩ := dueEntries_append due later
  rw [List.append_assoc, List.singleton_append, ← entries] at gone left
  simp [Part.activate, gone, left]

end

/-- The plan once an entry is applied field by field (R143) and those after it wait. -/
theorem setEntries_applyEntry (p : Part) (e : PlanEntry) (waiting : List PlanEntry) :
    (p.applyEntry e).setEntries waiting
      = let band := clampBand p.config.station (e.band.getD p.plan.band)
        { p with
          plan :=
            { target := clampTarget p.config.station band e.target
              band := band
              budget := e.budget.map fun kw => min kw 5000
              inhibit := e.inhibit.getD false
              entries := waiting
              planState := if waiting = [] then .empty else .waiting } } := by
  have budget : clampNat 0 5000 = fun kw => min kw 5000 :=
    funext fun kw => (clampNat_zero 5000 kw).trans (min_comm _ _)
  simp only [Part.setEntries, Part.applyEntry, Part.applyTarget, budget, List.isEmpty_iff]

/-- The records of an activation (R142), by what it passes over and what it leaves. -/
theorem recordActivation_eq (p : Part) (skipped : List PlanEntry) :
    p.recordActivation (skipped.length + 1)
      = let p1 := if skipped = [] then p else p.record .planSkipped none (some (skipped.length : Int))
        let p2 := p1.record .planApplied none (some p.plan.target)
        if p.plan.entries = [] then p2.record .planEmpty none none else p2 := by
  cases skipped <;> simp [Part.recordActivation, List.isEmpty_iff]

theorem activationAppliesNewest : Rules.ActivationAppliesNewest := by
  refine ⟨fun p later => activate_of_noneDue later, ?_⟩
  intro p skipped waiting e entries due later st
  refine ⟨clampBand st (e.band.getD p.plan.band), _, targets_of_wide st _ e.target, ?_⟩
  rw [activate_of_due entries due later, recordActivation_eq, setEntries_applyEntry]

end Sys2Proof.Machine

open Sys2Proof Sys2Proof.Machine in
/-- Settles O43, from SET_TARGET and the activation. -/
theorem targetsApplied : Obligations.TargetsApplied := ⟨setTargetClamps, activationAppliesNewest⟩

namespace Sys2Proof.Machine

/-! ### PLAN_ADD (R139) -/

section
variable {p : Part} {e : PlanEntry}

theorem addRefusal_of_past (past : e.time.toNat ≤ p.accounting.clock.toNat) : p.addRefusal e = some .range :=
  if_pos past

variable (later : p.accounting.clock.toNat < e.time.toNat)
include later

theorem addRefusal_of_outOfOrder {last : PlanEntry} (tail : p.plan.entries.getLast? = some last)
    (early : e.time.toNat ≤ last.time.toNat) : p.addRefusal e = some .order := by
  simp [Part.addRefusal, later.not_ge, tail, early]

variable (ordered : ∀ last : PlanEntry, p.plan.entries.getLast? = some last → last.time.toNat < e.time.toNat)
include ordered

/-- An entry that is later than the clock and in order is refused only by a full plan. -/
theorem addRefusal_of_ordered : p.addRefusal e = if 32 ≤ p.plan.entries.length then some .full else none := by
  cases tail : p.plan.entries.getLast? with
  | none =>
    have empty : p.plan.entries = [] := List.getLast?_eq_none_iff.mp tail
    simp [Part.addRefusal, later.not_ge, empty]
  | some last => simp [Part.addRefusal, later.not_ge, tail, (ordered last tail).not_ge]

end

section
variable {p : Part} {w : PlanWords}

theorem servePlanAdd_of_refused {r : Reason} (h : p.addRefusal (planEntryOf w) = some r) :
    servePlanAdd w p = (p, .refusal r) := by
  simp only [servePlanAdd, h]

/-- An entry that is taken stands at the tail, and the plan is WAITING (R138, R139). -/
theorem servePlanAdd_of_taken (h : p.addRefusal (planEntryOf w) = none) :
    servePlanAdd w p
      = ({ p with plan := { p.plan with entries := p.plan.entries ++ [planEntryOf w], planState := .waiting } },
        .answer [codeByte (p.plan.entries.length + 1), 1#8]) := by
  simp [servePlanAdd, h, Part.setEntries, PlanState.code, codeByte]

end

theorem planAddTests : Rules.PlanAddTests := by
  intro tag w s receives p e entries refused ordered
  have refusal {r : Reason} (h : p.addRefusal e = some r) : refused r :=
    next_withPart s (request_of_receives receives (servePlanAdd_of_refused h))
  refine ⟨fun past => refusal (addRefusal_of_past past), fun later unordered => ?_, fun later inOrder full => ?_,
    fun later inOrder room => ?_⟩
  · obtain ⟨last, tail, early⟩ : ∃ last, entries.getLast? = some last ∧ e.time.toNat ≤ last.time.toNat := by
      simpa [ordered] using unordered
    exact refusal (addRefusal_of_outOfOrder later tail early)
  · exact refusal ((addRefusal_of_ordered later inOrder).trans (if_pos full))
  · have taken : p.addRefusal e = none := (addRefusal_of_ordered later inOrder).trans (if_neg (not_le.mpr room))
    exact next_withPart s (request_of_receives receives (servePlanAdd_of_taken taken))

/-! ### PLAN_CLEAR and ASK_PLAN (R140, R141) -/

section
variable {p : Part}

theorem servePlanClear_of_empty (h : p.plan.entries.length = 0) :
    servePlanClear p = (p.setEntries [], .answer [0#8]) := by
  simp [servePlanClear, h, codeByte]

theorem servePlanClear_of_entries (h : 0 < p.plan.entries.length) :
    servePlanClear p
      = ((p.setEntries []).record .planEmpty none (some (p.plan.entries.length : Int)),
        .answer [codeByte p.plan.entries.length]) := by
  simp only [servePlanClear, if_pos h]

end

theorem planClearAndAskPlan : Rules.PlanClearAndAskPlan := by
  intro tag s receives p n cleared
  refine ⟨fun nothing => ?_, fun held => ?_, fun position => ⟨fun outside => ?_, fun within => ?_⟩⟩
  · exact next_withPart s (request_of_receives receives (servePlanClear_of_empty nothing))
  · exact next_withPart s (request_of_receives receives (servePlanClear_of_entries held))
  · exact next_withPart s (request_of_receives receives (if_pos outside))
  · exact next_withPart s (request_of_receives receives (if_neg (not_lt.mpr within)))

end Sys2Proof.Machine

open Sys2Proof Sys2Proof.Machine in
/-- Settles O44, from PLAN_ADD, PLAN_CLEAR and ASK_PLAN. -/
theorem planRequests : Obligations.PlanRequests := ⟨planAddTests, planClearAndAskPlan⟩
end

section
/-! Supervision and control modes (chapter 9): O45. -/

namespace Sys2Proof.Machine

/-! ### An accepted telegram (R147, R149) -/

section
variable {p : Part}

theorem resumeSupervision_elsewhere (h : p.supervision.mode ≠ .autonomous) : p.resumeSupervision = p :=
  if_neg (mt beq_iff_eq.mp h)

/-- In AUTONOMOUS the mode goes back to SUPERVISED, recorded with the seconds that AUTONOMOUS stood (R149). -/
theorem resumeSupervision_of_autonomous (h : p.supervision.mode = .autonomous) :
    p.resumeSupervision
      = { Part.record { p with supervision.mode := .supervised } .supervisionResumed none
            (p.supervision.autonomousSince.map fun t => ((p.accounting.uptime - t).toNat : Int)) with
          supervision := { p.supervision with mode := .supervised, autonomousSince := none } } :=
  if_pos (beq_iff_eq.mpr h)

end

theorem acceptedTelegramReachesSupervision : Rules.AcceptedTelegramReachesSupervision := by
  intro p timer heard resumed
  refine ⟨fun h => ?_, fun h => ?_⟩
  · exact congrArg Part.restartSupervision (resumeSupervision_elsewhere (p := p.modLink Link.completed) h)
  · exact congrArg Part.restartSupervision (resumeSupervision_of_autonomous (p := p.modLink Link.completed) h)

/-- No request is served in AUTONOMOUS (R149). -/
theorem mode_arrived (p : Part) : p.arrived.supervision.mode ≠ .autonomous := by
  obtain ⟨elsewhere, resumed⟩ := acceptedTelegramReachesSupervision p
  by_cases h : p.supervision.mode = .autonomous
  · have back : p.arrived.supervision.mode = .supervised := by rw [resumed h]
    simp [back]
  · rw [elsewhere h]
    exact h

/-! ### The entry into AUTONOMOUS (R145, R148) -/

theorem autonomyEntered : Rules.AutonomyEntered := by
  intro s p st runs
  exact ⟨clampBand st st.fallbackBand, _, targets_of_wide st st.fallbackBand st.fallbackTarget,
    next_withPart s (if_pos runs)⟩

/-! ### SET_MODE (R150) -/

theorem setMode : Rules.SetMode := by
  intro tag s receives p set
  have hold {q : Part} {r : Response} (e : serveHold p = (q, r)) :
      exec (.setModeHold tag) s = .next (s.withPart (q.reply RequestKind.setMode.byte tag r)) :=
    next_withPart s (request_of_receives receives e)
  have release {q : Part} {r : Response} (e : serveRelease p = (q, r)) :
      exec (.setModeRelease tag) s = .next (s.withPart (q.reply RequestKind.setMode.byte tag r)) :=
    next_withPart s (request_of_receives receives e)
  refine ⟨fun h => ⟨hold ?_, release ?_⟩, fun h => ⟨hold ?_, release ?_⟩, mode_arrived s.part⟩
  · simp only [serveHold, h]; rfl
  · simp only [serveRelease, h]
  · simp only [serveHold, h]
  · simp only [serveRelease, h]; rfl

end Sys2Proof.Machine

open Sys2Proof Sys2Proof.Machine in
/-- Settles O45, from accepted telegrams, the entry into AUTONOMOUS, and SET_MODE. -/
theorem supervisionAndModes : Obligations.SupervisionAndModes :=
  ⟨acceptedTelegramReachesSupervision, autonomyEntered, setMode⟩
end

section
/-! The end of a reply with its after-reply actions, and RESTART_PART (chapters 9 and 11): O53. -/

namespace Sys2Proof.Machine

/-! ### The end of a reply (R182) -/

/-- New settings start no gap timer; one that runs takes their gap limit at once (R173, R182, log 26). -/
theorem takeSettings_eq (r : LinkSettings) (l : Link) :
    l.takeSettings r
      = { l with
          settings := r
          gap := if l.gap.isSome then some r.gapLimit.ms else none } := by
  cases running : l.gap <;> simp [Link.takeSettings, running]

section
variable (inp : FieldInputs)

theorem exec_replyEnd_of_replying {s : State} (replying : s.part.link.rx = .replying) :
    exec (.replyEnd inp) s = .next (s.withPart (s.part.replyEnds inp)) :=
  next_withPart s (if_pos (beq_iff_eq.mpr replying))

theorem replyEnds_of_noAction {p : Part} (h : p.link.after = none) : p.replyEnds inp = p.modLink Link.sent := by
  simp only [Part.replyEnds, h]

theorem replyEnds_of_action {p : Part} {a : AfterReply} (h : p.link.after = some a) :
    p.replyEnds inp = (p.modLink Link.sent).afterReply inp a := by
  simp only [Part.replyEnds, h]

theorem afterReply_newSettings (p : Part) (r : LinkSettings) :
    p.afterReply inp (.newSettings r)
      = { p with
          link :=
            { p.link with
              settings := r
              gap := if p.link.gap.isSome then some r.gapLimit.ms else none } } :=
  congrArg (fun l : Link => { p with link := l }) (takeSettings_eq r p.link)

/-- New enables come into force, and ALERT is formed with them (R194, R195). -/
theorem afterReply_newEnables (p : Part) (marks : Byte) :
    p.afterReply inp (.newEnables marks)
      = { p with
          config := { p.config with enables := marks }
          events := { p.events with alert := decide (p.events.flags &&& marks ≠ 0#8) } } :=
  congrArg
    (fun b : Bool =>
      { p with
        config := { p.config with enables := marks }
        events := { p.events with alert := b } })
    (alertOf_eq p.events.flags marks)

theorem afterReply_restart (p : Part) : p.afterReply inp .restart = p.resetTo true inp := rfl

end

theorem replyEndActs : Rules.ReplyEndActs := by
  intro inp s replying p sent
  have ends {q : Part} (h : p.replyEnds inp = q) : exec (.replyEnd inp) s = .next (s.withPart q) :=
    (exec_replyEnd_of_replying inp replying).trans (next_withPart s h)
  refine ⟨fun nothing => ?_, fun r settings => ?_, fun marks enables => ?_, fun restart => ?_⟩
  · exact ends (replyEnds_of_noAction inp nothing)
  · exact ends ((replyEnds_of_action inp settings).trans (afterReply_newSettings inp _ r))
  · exact ends ((replyEnds_of_action inp enables).trans (afterReply_newEnables inp _ marks))
  · exact ends ((replyEnds_of_action inp restart).trans (afterReply_restart inp _))

/-! ### RESTART_PART (R160) -/

section
variable {p : Part}

theorem serveRestartPart_of_saving (h : p.store.state = .saving) : serveRestartPart p = (p, .refusal .busy) := by
  simp only [serveRestartPart, h]

theorem serveRestartPart_of_idle (h : p.store.state = .idle) :
    serveRestartPart p = ({ p with link := { p.link with after := some .restart } }, .answer []) := by
  simp only [serveRestartPart, h]
  rfl

end

theorem restartPartRequested : Rules.RestartPartRequested := by
  intro tag s receives p
  refine ⟨fun saving => ?_, fun idle => ?_⟩
  · exact next_withPart s (request_of_receives receives (serveRestartPart_of_saving saving))
  · exact next_withPart s (request_of_receives receives (serveRestartPart_of_idle idle))

end Sys2Proof.Machine

open Sys2Proof Sys2Proof.Machine in
/-- Settles O53, from the end of a reply and the request of RESTART_PART. -/
theorem replyEndAndRestart : Obligations.ReplyEndAndRestart := ⟨replyEndActs, restartPartRequested⟩
end

section
/-! Numbers read back from bytes, and the rows that request telegrams spell (chapter 11): for O9, O51, O52, O59, O60. -/

namespace Sys2Proof.Machine

/-! ### Numbers read back (R185) -/

theorem foldl_beBytes (k n a : Nat) :
    (beBytes k n).foldl (fun m b => 256 * m + b.toNat) a = a * 256 ^ k + n % 256 ^ k := by
  induction k generalizing a with
  | zero => simp [beBytes, Nat.mod_one]
  | succ k ih =>
    rw [beBytes, List.foldl_cons, ih, pow_succ, Nat.mod_mul, BitVec.toNat_ofNat]
    ring

theorem ofBytes_beBytes {k n : Nat} (h : n < 256 ^ k) : ofBytes (beBytes k n) = n := by
  rw [ofBytes, foldl_beBytes, Nat.zero_mul, Nat.zero_add, Nat.mod_eq_of_lt h]

section
variable {bs : List Byte} {off : Nat}

theorem fieldAt_of_holds {k n : Nat} (h : Holds bs off (beBytes k n)) (small : n < 256 ^ k) : fieldAt bs off k = n := by
  rw [Holds, length_beBytes] at h
  rw [fieldAt, h, ofBytes_beBytes small]

theorem fieldAt_of_holds_byte {b : Byte} (h : Holds bs off [b]) : fieldAt bs off 1 = b.toNat := by
  rw [fieldAt, show (bs.drop off).take 1 = [b] from h]
  simp [ofBytes]

theorem byteAt_of_holds {b : Byte} (h : Holds bs off [b]) : byteAt bs off = b := by
  rw [byteAt, fieldAt_of_holds_byte h]
  exact codeByte_toNat rfl

/-- A field of `8 * k` bits is read as the bits it was written from. -/
theorem ofNat_fieldAt_of_holds {k w : Nat} {v : BitVec w} (h : Holds bs off (beBytes k v.toNat))
    (wide : 2 ^ w = 256 ^ k) : BitVec.ofNat w (fieldAt bs off k) = v := by
  rw [fieldAt_of_holds h (wide ▸ v.isLt), BitVec.ofNat_toNat, BitVec.setWidth_eq]

end

/-! ### The row of a telegram takes the request of its kind and body (section 11.7, R184) -/

/-- The immediate round that a request row takes at its end: none where its service enqueues nothing, one with the
currents of its event, or one whose event carries none (R15, log 4). -/
inductive RoundAtEnd where
  | none | due | unseen

/-- The part after that round, with the currents `cur` where the event carries them. -/
def RoundAtEnd.take (cur : Currents) : RoundAtEnd → Part → Part
  | .none, p => p
  | .due, p => p.takeDueRound cur
  | .unseen, p => p.takeUnseenRound

/-- The row takes the request of this kind and body, and then a round of one of the three forms. -/
def ServesBody (row : Instr) (k : RequestKind) (tag : Byte) (body : List Byte) (cur : Currents) : Prop :=
  ∃ r : RoundAtEnd, ∀ s : State,
    exec row s = .next (s.withPart (r.take cur (request k tag (serveKind k body cur) s.part)))

section
variable {k : RequestKind} {tag : Byte} {body : List Byte} {cur : Currents} {row : Instr}

theorem ServesBody.of_service {service : Part → Part × Response} (r : RoundAtEnd)
    (same : ∀ p, serveKind k body cur p = service p)
    (h : ∀ s, exec row s = .next (s.withPart (r.take cur (request k tag service s.part)))) :
    ServesBody row k tag body cur := by
  rw [← funext same] at h
  exact ⟨r, h⟩

theorem servesBody_unitOrder (h : rowOf .unitOrder tag body cur = some row) :
    ServesBody row .unitOrder tag body cur := by
  simp only [rowOf, unitOrderRow] at h
  split at h <;> cases h
  · exact .of_service .none (fun p => by simp only [serveKind, serveUnitOrder, *]) fun _ => rfl
  · exact .of_service .unseen (fun p => by simp only [serveKind, serveUnitOrder, *]) fun _ => rfl
  · exact .of_service .due (fun p => by simp only [serveKind, serveUnitOrder, *]) fun _ => rfl
  · exact .of_service .unseen (fun p => by simp only [serveKind, serveUnitOrder, *]) fun _ => rfl
  · exact .of_service .none (fun p => by simp only [serveKind, serveUnitOrder, *]) fun _ => rfl
  · exact .of_service .none (fun p => by simp only [serveKind, serveUnitOrder, *]) fun _ => rfl

theorem servesBody_sluiceOrder (h : rowOf .sluiceOrder tag body cur = some row) :
    ServesBody row .sluiceOrder tag body cur := by
  simp only [rowOf] at h
  split at h <;> cases h
  all_goals exact .of_service .none (fun p => by simp only [serveKind, serveSluiceOrder, *]) fun _ => rfl

theorem servesBody_rakeOrder (h : rowOf .rakeOrder tag body cur = some row) :
    ServesBody row .rakeOrder tag body cur := by
  simp only [rowOf] at h
  split at h <;> cases h
  all_goals exact .of_service .none (fun p => by simp only [serveKind, serveRakeOrder, *]) fun _ => rfl

theorem servesBody_setMode (h : rowOf .setMode tag body cur = some row) : ServesBody row .setMode tag body cur := by
  simp only [rowOf] at h
  split at h <;> cases h
  all_goals exact .of_service .none (fun p => by simp only [serveKind, serveSetMode, *]) fun _ => rfl

/-- The record type of a WRITE_CONFIG is the first byte of its body; the row stands for it (R198). -/
theorem servesBody_writeConfig (h : rowOf .writeConfig tag body cur = some row) :
    ServesBody row .writeConfig tag body cur := by
  have same {type : Byte} (e : (byteAt body 0).toNat = type.toNat) (p : Part) :
      serveKind .writeConfig body cur p = serveWriteConfig type (byteAt body 1) (body.drop 2) p := by
    rw [serveKind, BitVec.eq_of_toNat_eq e]
  simp only [rowOf, writeConfigRow] at h
  split at h <;> cases h
  next code => exact .of_service .none (same (type := 0#8) code) fun _ => rfl
  next code => exact .of_service .unseen (same (type := 1#8) code) fun _ => rfl
  next code => exact .of_service .unseen (same (type := 2#8) code) fun _ => rfl
  next code => exact .of_service .none (same (type := 3#8) code) fun _ => rfl

/-- The row that a telegram spells takes the request that the telegram carries (R178 to R180). -/
theorem servesBody_of_rowOf (h : rowOf k tag body cur = some row) : ServesBody row k tag body cur := by
  cases k
  case unitOrder => exact servesBody_unitOrder h
  case sluiceOrder => exact servesBody_sluiceOrder h
  case rakeOrder => exact servesBody_rakeOrder h
  case setMode => exact servesBody_setMode h
  case writeConfig => exact servesBody_writeConfig h
  case setBudget => cases h; exact ⟨.unseen, fun _ => rfl⟩
  case setClock => cases h; exact ⟨.unseen, fun _ => rfl⟩
  all_goals cases h; exact ⟨.none, fun _ => rfl⟩

end

/-! ### Every request row is spelled by a telegram -/

theorem byteAt_zero (b : Byte) (bs : List Byte) : byteAt (b :: bs) 0 = b := byteAt_of_holds rfl

theorem byteAt_one (a b : Byte) (bs : List Byte) : byteAt (a :: b :: bs) 1 = b := byteAt_of_holds rfl

/-- The 12 bytes of a PLAN_ADD body (R189). -/
def encodePlanWords (w : PlanWords) : List Byte :=
  beBytes 4 w.time.toNat ++ beBytes 2 w.target.toNat ++ [w.marks] ++ beBytes 2 w.band.toNat
    ++ beBytes 2 w.budget.toNat ++ [w.inhibit]

theorem decodePlanWords_encodePlanWords (w : PlanWords) : decodePlanWords (encodePlanWords w) = w := by
  have time : Holds (encodePlanWords w) 0 (beBytes 4 w.time.toNat) := rfl
  have target : Holds (encodePlanWords w) 4 (beBytes 2 w.target.toNat) := rfl
  have marks : Holds (encodePlanWords w) 6 [w.marks] := rfl
  have band : Holds (encodePlanWords w) 7 (beBytes 2 w.band.toNat) := rfl
  have budget : Holds (encodePlanWords w) 9 (beBytes 2 w.budget.toNat) := rfl
  have inhibit : Holds (encodePlanWords w) 11 [w.inhibit] := rfl
  rw [decodePlanWords, ofNat_fieldAt_of_holds time rfl, ofNat_fieldAt_of_holds target rfl,
    ofNat_fieldAt_of_holds band rfl, ofNat_fieldAt_of_holds budget rfl, fieldAt_of_holds_byte marks,
    fieldAt_of_holds_byte inhibit, BitVec.ofNat_toNat, BitVec.ofNat_toNat, BitVec.setWidth_eq, BitVec.setWidth_eq]

section
variable (tag : Byte) (cur : Currents)

theorem rowOf_unitOrder (n action : Byte) :
    rowOf .unitOrder tag [n, action] cur = unitOrderRow tag n cur action.toNat := by
  rw [rowOf, byteAt_zero, byteAt_one]

theorem rowOf_writeConfig (type inst : Byte) (record : List Byte) :
    rowOf .writeConfig tag (type :: inst :: record) cur = writeConfigRow tag inst record type.toNat := by
  rw [rowOf, byteAt_zero, byteAt_one]
  rfl

theorem rowOf_setTarget (target band : Word16) :
    rowOf .setTarget tag (beBytes 2 target.toNat ++ beBytes 2 band.toNat) cur = some (.setTarget tag target band) := by
  have t : word16At (beBytes 2 target.toNat ++ beBytes 2 band.toNat) 0 = target := ofNat_fieldAt_of_holds rfl rfl
  have b : word16At (beBytes 2 target.toNat ++ beBytes 2 band.toNat) 2 = band := ofNat_fieldAt_of_holds rfl rfl
  rw [rowOf, t, b]

theorem rowOf_setBudget (budget : Word16) :
    rowOf .setBudget tag (beBytes 2 budget.toNat) cur = some (.setBudget tag budget) := by
  rw [rowOf, show word16At (beBytes 2 budget.toNat) 0 = budget from ofNat_fieldAt_of_holds rfl rfl]

theorem rowOf_setClock (clock : Word32) :
    rowOf .setClock tag (beBytes 4 clock.toNat) cur = some (.setClock tag clock) := by
  have read : BitVec.ofNat 32 (fieldAt (beBytes 4 clock.toNat) 0 4) = clock := ofNat_fieldAt_of_holds rfl rfl
  rw [rowOf, read]

theorem rowOf_planAdd (w : PlanWords) :
    rowOf .planAdd tag (encodePlanWords w) cur = some (.planAdd tag w) := by
  rw [rowOf, decodePlanWords_encodePlanWords]

end

theorem exists_rowOf {c : Instr} (h : isRequest c = true) : ∃ k tag body cur, rowOf k tag body cur = some c := by
  have still : Currents := ⟨0, 0, 0, 0⟩
  have read (b : Byte) (bs : List Byte) := byteAt_zero b bs
  cases c <;> try cases h
  case enable tag n => exact ⟨.unitOrder, tag, [n, 1#8], still, rowOf_unitOrder tag still n 1#8⟩
  case disable tag n => exact ⟨.unitOrder, tag, [n, 2#8], still, rowOf_unitOrder tag still n 2#8⟩
  case handStart tag n cur => exact ⟨.unitOrder, tag, [n, 3#8], cur, rowOf_unitOrder tag cur n 3#8⟩
  case handStop tag n => exact ⟨.unitOrder, tag, [n, 4#8], still, rowOf_unitOrder tag still n 4#8⟩
  case unitAuto tag n => exact ⟨.unitOrder, tag, [n, 5#8], still, rowOf_unitOrder tag still n 5#8⟩
  case unitClear tag n => exact ⟨.unitOrder, tag, [n, 6#8], still, rowOf_unitOrder tag still n 6#8⟩
  case askUnit tag n => exact ⟨.askUnit, tag, [n], still, by rw [rowOf, read]⟩
  case setBudget tag budget => exact ⟨.setBudget, tag, _, still, rowOf_setBudget tag still budget⟩
  case sluiceAuto tag => exact ⟨.sluiceOrder, tag, [1#8], still, rfl⟩
  case sluiceKeepClosed tag => exact ⟨.sluiceOrder, tag, [2#8], still, rfl⟩
  case sluiceClear tag => exact ⟨.sluiceOrder, tag, [3#8], still, rfl⟩
  case rakeStart tag => exact ⟨.rakeOrder, tag, [1#8], still, rfl⟩
  case rakeClear tag => exact ⟨.rakeOrder, tag, [2#8], still, rfl⟩
  case setTarget tag target band => exact ⟨.setTarget, tag, _, still, rowOf_setTarget tag still target band⟩
  case planAdd tag w => exact ⟨.planAdd, tag, _, still, rowOf_planAdd tag still w⟩
  case planClear tag => exact ⟨.planClear, tag, [], still, rfl⟩
  case askPlan tag n => exact ⟨.askPlan, tag, [n], still, by rw [rowOf, read]⟩
  case setModeHold tag => exact ⟨.setMode, tag, [1#8], still, rfl⟩
  case setModeRelease tag => exact ⟨.setMode, tag, [2#8], still, rfl⟩
  case restartPart tag => exact ⟨.restartPart, tag, [], still, rfl⟩
  case askStation tag => exact ⟨.askStation, tag, [], still, rfl⟩
  case askGauges tag cur => exact ⟨.askGauges, tag, [], cur, rfl⟩
  case askCounters tag => exact ⟨.askCounters, tag, [], still, rfl⟩
  case setClock tag clock => exact ⟨.setClock, tag, _, still, rowOf_setClock tag still clock⟩
  case zeroCounters tag => exact ⟨.zeroCounters, tag, [], still, rfl⟩
  case takeEvents tag n => exact ⟨.takeEvents, tag, [n], still, by rw [rowOf, read]⟩
  case setAlerts tag m => exact ⟨.setAlerts, tag, [m], still, by rw [rowOf, read]⟩
  case clearAlerts tag m => exact ⟨.clearAlerts, tag, [m], still, by rw [rowOf, read]⟩
  case writeConfigLink tag i bs => exact ⟨.writeConfig, tag, _, still, rowOf_writeConfig tag still 0#8 i bs⟩
  case writeConfigStation tag i bs => exact ⟨.writeConfig, tag, _, still, rowOf_writeConfig tag still 1#8 i bs⟩
  case writeConfigGauge tag i bs => exact ⟨.writeConfig, tag, _, still, rowOf_writeConfig tag still 2#8 i bs⟩
  case writeConfigUnit tag i bs => exact ⟨.writeConfig, tag, _, still, rowOf_writeConfig tag still 3#8 i bs⟩
  case askConfig tag type i => exact ⟨.askConfig, tag, [type, i], still, by rw [rowOf, read, byteAt_one]⟩
  case saveConfig tag => exact ⟨.saveConfig, tag, [], still, rfl⟩

end Sys2Proof.Machine
end

section
/-! Receive state, discarding, gap timer and direction control fit one another (chapter 11): O9. -/

namespace Sys2Proof.Machine

/-! ### Commands that leave the reception alone -/

/-- The link controller's own events and the resets, beside the requests: line faults, bytes, the end of a reply,
power-on. -/
def changesReception : Instr → Bool
  | .powerOnReset _ | .unknownKind _ _ | .checkFailure | .oversize _ | .overrun | .gapTimerExpiry | .replyEnd _
  | .byteReceived _ _ | .refusalLength _ _ _ => true
  | _ => false

/-- What `Part.LinkFits` speaks of. -/
def Link.reception (l : Link) : RxState × Bool × Option Nat × Bool := (l.rx, l.discarding, l.gap, l.direction)

/-- `q` has the reception of `p`: whatever else moved, receive state, discarding, gap timer and direction control did
not. -/
def SameReception (p q : Part) : Prop := q.link.reception = p.link.reception

namespace SameReception

/-- Every move but those of the link controller and of a blank part leaves the reception alone. -/
theorem partMoves : PartMoves SameReception where
  refl _ := rfl
  trans a b := b.trans a
  arbiter _ _ _ _ := rfl
  record _ _ _ _ := rfl
  roundDue _ _ := rfl
  enter _ _ _ := rfl
  starting _ _ := rfl
  priming _ _ _ := rfl
  resting _ _ := rfl
  stopping _ _ := rfl
  quiet _ _ _ _ := rfl
  runLine _ _ _ := rfl
  tripLine _ _ _ := rfl
  primedLine _ _ _ := rfl
  authority _ _ _ := rfl
  allAuto _ := rfl
  zeroLoads _ := rfl
  running _ _ := rfl
  runLoss _ _ _ _ := rfl
  dwell _ _ _ _ := rfl
  gauge _ _ := rfl
  curves _ _ _ := rfl
  dispatcher _ _ := rfl
  freeCount _ _ := rfl
  budget _ _ _ := rfl
  store _ _ := rfl
  sluice _ _ _ _ := rfl
  estimator _ _ _ _ := rfl
  cleaner _ _ _ := rfl
  supervision _ _ _ := rfl
  planClock _ _ _ _ := rfl
  linkAside _ _ _ := rfl
  events _ _ _ := rfl
  config _ _ _ _ _ := rfl

theorem ite {c : Prop} [Decidable c] {p a b : Part} (ha : c → SameReception p a) (hb : ¬c → SameReception p b) :
    SameReception p (if c then a else b) := by
  split
  · exact ha ‹_›
  · exact hb ‹_›

theorem trans {p q r : Part} (a : SameReception p q) (b : SameReception q r) : SameReception p r := partMoves.trans a b

theorem exec {c : Instr} {s t : State} (request : isRequest c = false) (own : changesReception c = false)
    (e : exec c s = .next t) : SameReception s.part t.part := by
  have P := partMoves
  have U := P.toUnitMoves
  have same : SameReception s.part s.part := P.refl _
  have unseen {q : Part} (k : SameReception s.part q) : SameReception s.part q.takeUnseenRound :=
    k.trans (P.takeUnseenRound q)
  have due {q : Part} (k : SameReception s.part q) (cur : Currents) : SameReception s.part (q.takeDueRound cur) :=
    k.trans (P.takeDueRound q cur)
  have now {q : Part} (k : SameReception s.part q) (cur : Currents) : SameReception s.part (q.immediateRound cur) :=
    k.trans (P.immediateRound q cur)
  cases c <;> cases request <;> cases own
  all_goals
    injection e with e
    subst e
  case samplingRound cur => exact P.round _ cur
  case runAsserted u => exact ite (fun _ => same) fun _ => unseen ((P.runLine _ u true).trans (P.runOn _ u))
  case runReleased u => exact ite (fun _ => unseen ((P.runLine _ u false).trans (P.runOff _ u))) fun _ => same
  case tripAsserted u => exact ite (fun _ => same) fun _ => unseen ((P.tripLine _ u true).trans (U.tripOn _ u))
  case tripReleased u => rfl
  case primedAsserted u => exact ite (fun _ => same) fun _ => unseen ((P.primedLine _ u true).trans (U.primedOn _ u))
  case primedReleased u => rfl
  case primeTimerExpiry u cur => exact ite (fun _ => due (U.failStart _ u _ _) cur) fun _ => same
  case startTimerExpiry u cur => exact ite (fun _ => due (U.failStart _ u _ _) cur) fun _ => same
  case stopTimerExpiry u => exact ite (fun _ => U.stopFails _ u) fun _ => same
  case restTimerExpiry u cur => exact ite (fun _ => due (U.endRest _ u) cur) fun _ => same
  case minRunTimerExpiry u => exact ite (fun _ => rfl) fun _ => same
  case runLossTimerExpiry u => exact ite (fun _ => P.runLost _ u) fun _ => same
  case dwellTimerExpiry u => exact ite (fun _ => unseen (U.dwellExpired _ u)) fun _ => same
  case dispatchEvaluation cur => exact due (((P.startEvaluation _).trans (P.formRanking _)).trans (P.stages _)) cur
  case staggerTimerExpiry =>
    have stopped := P.arbiter s.part { s.part.arbiter with stagger := none } rfl rfl
    exact ite (fun _ => unseen (stopped.trans (U.grantCheck _))) fun _ => same
  case shedDelayTimerExpiry =>
    exact ite (fun _ => ite (fun _ => unseen ((U.startShedDelay _).trans (U.shedOne _))) fun _ => rfl) fun _ => same
  case curtailAsserted => exact ite (fun _ => same) fun _ => unseen (P.curtailMoved _ _ _)
  case curtailReleased => exact ite (fun _ => unseen (P.curtailMoved _ _ _)) fun _ => same
  case historyTimerExpiry => rfl
  case accountingSecond => exact unseen (P.accountingSecond _)
  case floatHighAsserted cur => exact ite (fun _ => same) fun _ => now (P.floatHighOn _) cur
  case floatHighReleased cur => exact ite (fun _ => now (P.gauge s.part _) cur) fun _ => same
  case floatLowAsserted cur => exact ite (fun _ => same) fun _ => now (P.floatLowOn _) cur
  case floatLowReleased cur => exact ite (fun _ => now (P.floatLowOff _) cur) fun _ => same
  case sluiceAtOpenAsserted =>
    exact ite (fun _ => same) fun _ => (P.limitLines s.part true s.part.sluice.atClosed).trans (P.limitMoved _ _)
  case sluiceAtOpenReleased =>
    exact ite (fun _ => (P.limitLines s.part false s.part.sluice.atClosed).trans (P.limitMoved _ _)) fun _ => same
  case sluiceAtClosedAsserted =>
    exact ite (fun _ => same) fun _ => (P.limitLines s.part s.part.sluice.atOpen true).trans (P.limitMoved _ _)
  case sluiceAtClosedReleased =>
    exact ite (fun _ => (P.limitLines s.part s.part.sluice.atOpen false).trans (P.limitMoved _ _)) fun _ => same
  case travelTimerExpiry => exact ite (fun _ => rfl) fun _ => same
  case rakeDoneAsserted => exact ite (fun _ => same) fun _ => ite (fun _ => rfl) fun _ => rfl
  case rakeDoneReleased => rfl
  case rakingTimerExpiry => exact ite (fun _ => rfl) fun _ => same
  case intervalTimerExpiry => exact ite (fun _ => ite (fun _ => P.startRake _ _) fun _ => rfl) fun _ => same
  case pauseTimerExpiry => rfl
  case supervisionTimerExpiry => exact ite (fun _ => unseen (P.enterAutonomous _)) fun _ => same
  case mainsOkReleased cur =>
    exact ite (fun _ => now (((P.mainsLost _).trans (P.sluiceMainsLost _)).trans (P.cleanerMainsLost _)) cur)
      fun _ => same
  case mainsOkAsserted cur => exact ite (fun _ => same) fun _ => now (P.mainsBack _) cur
  case settleTimerExpiry cur =>
    refine ite (fun settling => due (P.restart _ ?_) cur) fun _ => same
    exact beq_iff_eq.mp (Bool.and_eq_true_iff.mp settling).1
  case saveAttemptCompletion passed =>
    cases saving : s.part.store.state with
    | saving =>
      simp only [saving]
      exact ite (fun _ => P.savePassed _) fun _ => P.saveFailed _
    | idle =>
      simp only [saving]
      exact same

end SameReception

/-! ### How the link controller moves -/

/-- `Part.LinkFits`, said of the link controller alone. -/
def Link.Fits (l : Link) : Prop :=
  (l.direction = true ↔ l.rx = .replying) ∧ (l.rx = .hunting → l.gap = none ∧ l.discarding = false)
    ∧ (l.rx = .inTelegram → l.gap.isSome = true) ∧ (l.rx = .replying → l.gap.isSome = l.discarding)

theorem Part.linkFits_iff (p : Part) : p.LinkFits ↔ p.link.Fits := Iff.rfl

theorem SameReception.linkFits {p q : Part} (same : SameReception p q) (h : p.LinkFits) : q.LinkFits := by
  simp only [SameReception, Link.reception, Prod.mk.injEq] at same
  obtain ⟨rx, discarding, gap, direction⟩ := same
  rw [Part.linkFits_iff, Link.Fits, rx, discarding, gap, direction]
  exact h

namespace Link.Fits

variable {l : Link}

theorem direction_eq_false (h : l.Fits) (rx : l.rx ≠ .replying) : l.direction = false :=
  Bool.eq_false_iff.mpr fun on => rx (h.1.mp on)

/-- Hunting, with the gap timer stopped and nothing discarded. -/
theorem of_hunting (rx : l.rx = .hunting) (gap : l.gap = none) (discarding : l.discarding = false)
    (direction : l.direction = false) : l.Fits := by
  simp [Fits, rx, gap, discarding, direction]

/-- In a telegram, with the gap timer running. -/
theorem of_inTelegram (rx : l.rx = .inTelegram) (gap : l.gap.isSome = true) (direction : l.direction = false) :
    l.Fits := by
  simp [Fits, rx, gap, direction]

/-- Replying, with the gap timer running exactly while discarding. -/
theorem of_replying (rx : l.rx = .replying) (gap : l.gap.isSome = l.discarding) (direction : l.direction = true) :
    l.Fits := by
  simp [Fits, rx, gap, direction]

/-- While discarding, a byte starts the gap timer again; HUNTING discards nothing (R177). -/
theorem startGap (h : l.Fits) (discarding : l.discarding = true) : l.startGap.Fits := by
  cases rx : l.rx with
  | hunting => exact absurd (h.2.1 rx).2 (by simp [discarding])
  | inTelegram => exact of_inTelegram rx rfl (h.direction_eq_false (by simp [rx]))
  | replying => exact of_replying rx discarding.symm (h.1.mpr rx)

theorem overrun (h : l.Fits) (rx : l.rx = .replying) : l.overrun.Fits := of_replying rx rfl (h.1.mpr rx)

/-- What arrives where nothing can be received is an overrun or goes on being discarded (R177, R182). -/
theorem lostTelegram (h : l.Fits) (lost : l.receives = false) : l.lostTelegram.Fits := by
  unfold Link.lostTelegram
  split
  next discarding => exact h.startGap discarding
  next receiving => exact h.overrun (by simpa [receives, receiving] using lost)

theorem oversized (h : l.Fits) (rx : l.rx ≠ .replying) : l.oversized.Fits :=
  of_inTelegram rfl rfl (h.direction_eq_false rx)

theorem checkFailed (h : l.Fits) (rx : l.rx ≠ .replying) (discarding : l.discarding = false) : l.checkFailed.Fits :=
  of_hunting rfl rfl discarding (h.direction_eq_false rx)

theorem gapExpired (h : l.Fits) : l.gapExpired.Fits := by
  unfold Link.gapExpired
  split
  next rx discarding => exact of_hunting rfl rfl discarding (h.direction_eq_false (by simp [rx]))
  next rx _ => exact of_hunting rfl rfl rfl (h.direction_eq_false (by simp [rx]))
  next rx _ => exact of_replying rx rfl (h.1.mpr rx)
  next rx discarding => exact of_replying rx discarding.symm (h.1.mpr rx)
  next rx => exact of_hunting rx rfl (h.2.1 rx).2 (h.direction_eq_false (by simp [rx]))

/-- The reply ends where its reception goes on: in a telegram still discarded, or hunting (R182). -/
theorem sent (h : l.Fits) (rx : l.rx = .replying) : l.sent.Fits := by
  have gap := h.2.2.2 rx
  cases discarding : l.discarding with
  | true => exact of_inTelegram (by simp [Link.sent, discarding]) (gap.trans discarding) rfl
  | false =>
    have stopped : l.gap = none := by simpa using gap.trans discarding
    exact of_hunting (by simp [Link.sent, discarding]) stopped discarding rfl

theorem takeSettings (h : l.Fits) (r : LinkSettings) : (l.takeSettings r).Fits := by
  simpa [Fits, Link.takeSettings] using h

theorem begin (h : l.Fits) (rx : l.rx = .hunting) : l.begin.Fits :=
  of_inTelegram rfl rfl (h.direction_eq_false (by simp [rx]))

theorem appendByte (h : l.Fits) (rx : l.rx = .inTelegram) (b : Byte) : (l.appendByte b).Fits :=
  of_inTelegram rx rfl (h.direction_eq_false (by simp [rx]))

end Link.Fits

/-! ### How a telegram, a byte and the end of a reply move it -/

theorem Link.receives_iff (l : Link) : l.receives = true ↔ l.rx ≠ .replying ∧ l.discarding = false := by
  simp [Link.receives]

namespace Part.LinkFits

variable {p q : Part}

/-- A reply begins with the gap timer stopped and nothing discarded, as the completed telegram left them (R178,
R180). -/
theorem reply (same : SameReception (p.modLink Link.completed) q) (discarding : p.link.discarding = false)
    (kind tag : Byte) (r : Response) : (q.reply kind tag r).LinkFits := by
  simp only [SameReception, Link.reception, Prod.mk.injEq] at same
  obtain ⟨-, kept, gap, -⟩ := same
  refine Link.Fits.of_replying rfl ?_ rfl
  calc q.link.gap.isSome = false := by rw [gap]; rfl
    _ = q.link.discarding := (kept.trans discarding).symm

theorem serve (discarding : p.link.discarding = false) (kind tag : Byte) {f : Part → Part × Response}
    (hf : ∀ q, SameReception q (f q).1) : (p.serve kind tag f).LinkFits :=
  reply ((SameReception.partMoves.acceptTelegram _).trans (hf _)) discarding kind tag _

/-- A whole telegram, served where it can be received and lost where it cannot. -/
theorem arrival (h : p.LinkFits) (kind tag : Byte) {f : Part → Part × Response}
    (hf : ∀ q, SameReception q (f q).1) :
    (if p.link.receives then p.serve kind tag f else p.modLink Link.lostTelegram).LinkFits := by
  split
  next receives => exact serve (p.link.receives_iff.mp receives).2 _ tag hf
  next lost => exact Link.Fits.lostTelegram h (Bool.eq_false_iff.mpr lost)

theorem refuseLength (h : p.LinkFits) (kind tag : Byte) : (Machine.refuseLength kind tag p).LinkFits := by
  unfold Machine.refuseLength
  split
  next receives => exact reply (SameReception.partMoves.refl _) (p.link.receives_iff.mp receives).2 kind tag _
  next lost => exact Link.Fits.lostTelegram h (Bool.eq_false_iff.mpr lost)

theorem takeTelegram (h : p.LinkFits) (rx : p.link.rx = .inTelegram) (discarding : p.link.discarding = false)
    (bs : List Byte) (cur : Currents) : (p.takeTelegram bs cur).LinkFits := by
  have P := SameReception.partMoves
  unfold Part.takeTelegram Part.testTelegram
  split
  · split
    · exact serve discarding _ _ fun q => P.refl q
    · split
      · exact serve discarding _ _ fun q => P.serveKind _ _ _ q
      · exact reply (P.refl _) discarding _ _ _
  · exact Link.Fits.checkFailed h (by simp [rx]) discarding

theorem receiveByte (h : p.LinkFits) (b : Byte) (cur : Currents) : (p.receiveByte b cur).LinkFits := by
  unfold Part.receiveByte
  split
  next rx =>
    split
    · exact Link.Fits.begin h rx
    · exact h
  next rx receiving =>
    unfold Part.extendTelegram
    split
    · exact Link.Fits.oversized h (by simp [rx])
    · split
      · exact h.takeTelegram rx receiving _ cur
      · exact Link.Fits.appendByte h rx b
  next rx _ =>
    split
    · exact Link.Fits.overrun h rx
    · exact h
  next discarding => exact Link.Fits.startGap h discarding
  next discarding => exact Link.Fits.startGap h discarding

/-- After a reset the link controller hunts (R174). -/
theorem resetTo (p : Part) (restart : Bool) (inp : FieldInputs) : (p.resetTo restart inp).LinkFits :=
  (SameReception.partMoves.resetFromBlank p restart inp).linkFits (Link.Fits.of_hunting rfl rfl rfl rfl)

theorem replyEnds (h : p.LinkFits) (rx : p.link.rx = .replying) (inp : FieldInputs) : (p.replyEnds inp).LinkFits := by
  have sent : (p.modLink Link.sent).LinkFits := Link.Fits.sent h rx
  unfold Part.replyEnds
  split
  · unfold Part.afterReply
    split
    · exact Link.Fits.takeSettings sent _
    · exact sent
    · exact resetTo _ true inp
  · exact sent

end Part.LinkFits

/-! ### Every command -/

theorem SameReception.round (r : RoundAtEnd) (cur : Currents) (p : Part) : SameReception p (r.take cur p) := by
  cases r
  · exact partMoves.refl p
  · exact partMoves.takeDueRound p cur
  · exact partMoves.takeUnseenRound p

/-- A request row serves a body, which is all that the fit depends on. -/
theorem linkFits_exec_request {c : Instr} {s t : State} (h : s.part.LinkFits) (request : isRequest c = true)
    (e : exec c s = .next t) : t.part.LinkFits := by
  obtain ⟨k, tag, body, cur, spelled⟩ := exists_rowOf request
  obtain ⟨r, served⟩ := servesBody_of_rowOf spelled
  rw [served s] at e
  injection e with e
  subst e
  exact (SameReception.round r cur _).linkFits
    (h.arrival _ tag fun q => SameReception.partMoves.serveKind k body cur q)

theorem linkFits_exec_own {c : Instr} {s t : State} (h : s.part.LinkFits) (own : changesReception c = true)
    (e : exec c s = .next t) : t.part.LinkFits := by
  have P := SameReception.partMoves
  have lost (no : ¬s.part.link.receives = true) : s.part.link.lostTelegram.Fits :=
    Link.Fits.lostTelegram h (Bool.eq_false_iff.mpr no)
  cases c <;> cases own
  all_goals
    injection e with e
    subst e
  case powerOnReset inp => exact Part.LinkFits.resetTo _ false inp
  case unknownKind tag kind => exact h.arrival kind tag fun q => P.refl q
  case checkFailure =>
    show (if _ then _ else _ : Link).Fits
    split
    next receives =>
      obtain ⟨rx, discarding⟩ := (Link.receives_iff _).mp receives
      exact Link.Fits.checkFailed h rx discarding
    next no => exact lost no
  case oversize n =>
    show (if _ then _ else _ : Link).Fits
    split
    next receives => exact Link.Fits.oversized h ((Link.receives_iff _).mp receives).1
    next no => exact lost no
  case overrun =>
    show (if _ then _ else _ : Link).Fits
    split
    next rx => exact lost (by simp [Link.receives, beq_iff_eq.mp rx])
    · exact h
  case gapTimerExpiry =>
    show (if _ then _ else _ : Link).Fits
    split
    · exact Link.Fits.gapExpired h
    · exact h
  case replyEnd inp =>
    show (if _ then _ else _ : Part).LinkFits
    split
    next rx => exact h.replyEnds (beq_iff_eq.mp rx) inp
    · exact h
  case byteReceived b cur => exact (P.takeDueRound _ cur).linkFits (h.receiveByte b cur)
  case refusalLength tag kind n => exact h.refuseLength kind tag

theorem linkFits_exec {c : Instr} {s t : State} (h : s.part.LinkFits) (e : exec c s = .next t) : t.part.LinkFits := by
  cases request : isRequest c with
  | true => exact linkFits_exec_request h request e
  | false =>
    cases own : changesReception c with
    | true => exact linkFits_exec_own h own e
    | false => exact (SameReception.exec request own e).linkFits h

end Sys2Proof.Machine

open Sys2Proof Sys2Proof.Machine in
/-- Settles O9: a request begins its reply with nothing discarded and the gap timer stopped; the link controller's own
events keep the fit one by one; every other command leaves the reception alone. -/
theorem linkStatesFit : Obligations.LinkStatesFit := by
  intro s t h e
  rcases step_cases s t e with ⟨c, rest, -, k⟩ | rfl
  · exact linkFits_exec (s := { s with pending := rest }) h k
  · exact h
end

section
/-! Bytes, line faults and refused telegrams (chapter 11): O50, O52. -/

namespace Sys2Proof.Machine

/-! ### A byte that completes no telegram (R175, R177, R182) -/

/-- The row of a byte, where what the byte does leaves no round due. -/
theorem exec_byteReceived {b : Byte} {cur : Currents} {s : State} {q : Part} (h : s.part.receiveByte b cur = q)
    (notDue : q.roundDue = false) : exec (.byteReceived b cur) s = .next (s.withPart q) :=
  next_withPart s ((congrArg (·.takeDueRound cur) h).trans (takeDueRound_of_notDue notDue cur))

section
variable {p : Part} {b : Byte} (cur : Currents)

theorem receiveByte_of_begin (rx : p.link.rx = .hunting) (h : b = marker) :
    p.receiveByte b cur = p.modLink Link.begin := by
  simp [Part.receiveByte, rx, h]

theorem receiveByte_of_noMarker (rx : p.link.rx = .hunting) (h : b ≠ marker) : p.receiveByte b cur = p := by
  simp [Part.receiveByte, rx, h]

theorem receiveByte_of_discarding (rx : p.link.rx ≠ .hunting) (discarding : p.link.discarding = true) :
    p.receiveByte b cur = p.modLink Link.startGap := by
  cases state : p.link.rx with
  | hunting => exact absurd state rx
  | inTelegram => simp only [Part.receiveByte, state, discarding]
  | replying => simp only [Part.receiveByte, state, discarding]

theorem receiveByte_of_overrun (rx : p.link.rx = .replying) (receiving : p.link.discarding = false) (h : b = marker) :
    p.receiveByte b cur = p.modLink Link.overrun := by
  simp [Part.receiveByte, rx, receiving, h]

theorem receiveByte_of_stray (rx : p.link.rx = .replying) (receiving : p.link.discarding = false) (h : b ≠ marker) :
    p.receiveByte b cur = p := by
  simp [Part.receiveByte, rx, receiving, h]

section
variable (rx : p.link.rx = .inTelegram) (receiving : p.link.discarding = false)
include rx receiving

theorem receiveByte_of_oversize (h : lengthOversize (p.link.buffer ++ [b]) = true) :
    p.receiveByte b cur = p.modLink Link.oversized := by
  simp only [Part.receiveByte, rx, receiving, Part.extendTelegram, if_pos h]

theorem receiveByte_of_complete (fits : lengthOversize (p.link.buffer ++ [b]) = false)
    (complete : telegramComplete (p.link.buffer ++ [b]) = true) :
    p.receiveByte b cur = p.takeTelegram (p.link.buffer ++ [b]) cur := by
  simp [Part.receiveByte, rx, receiving, Part.extendTelegram, fits, complete]

theorem receiveByte_of_incomplete (fits : lengthOversize (p.link.buffer ++ [b]) = false)
    (incomplete : telegramComplete (p.link.buffer ++ [b]) = false) :
    p.receiveByte b cur = p.modLink (Link.appendByte b) := by
  simp [Part.receiveByte, rx, receiving, Part.extendTelegram, fits, incomplete]

end

end

/-! ### The length byte and the last byte (R177, R178) -/

theorem lengthOversize_pair (m n : Byte) : lengthOversize [m, n] = decide (240 < n.toNat) := rfl

/-- Past the length byte no byte is the length byte. -/
theorem lengthOversize_longer (m n b : Byte) (rest : List Byte) : lengthOversize (m :: n :: (rest ++ [b])) = false := by
  cases rest <;> rfl

theorem telegramComplete_cons (m n : Byte) (rest : List Byte) :
    telegramComplete (m :: n :: rest) = decide (rest.length + 2 = n.toNat + 6) := rfl

end Sys2Proof.Machine

open Sys2Proof Sys2Proof.Machine in
/-- Settles O50, by receive state and discarding; in a telegram by the place of the byte: the length byte, or a byte
short of the length that it gives. -/
theorem bytesReceived : Obligations.BytesReceived := by
  intro b cur s notDue l gap ends
  have of_moved {f : Link → Link} (h : s.part.receiveByte b cur = s.part.modLink f) : ends (f l) :=
    exec_byteReceived h notDue
  have of_same (h : s.part.receiveByte b cur = s.part) : ends l := exec_byteReceived h notDue
  refine ⟨fun rx h => ?_, fun rx h => ?_, fun rx receiving => ⟨fun one h => ?_, fun one h => ?_, ?_⟩,
    fun rx discarding => ?_, fun rx receiving => ⟨fun h => ?_, fun h => ?_⟩⟩
  · exact of_same (receiveByte_of_noMarker cur rx h)
  · exact of_moved (receiveByte_of_begin cur rx h)
  · obtain ⟨m, buffer⟩ := List.length_eq_one_iff.mp one
    have oversize : lengthOversize (l.buffer ++ [b]) = true := by
      rw [buffer]
      exact (lengthOversize_pair m b).trans (decide_eq_true h)
    have moved := of_moved (receiveByte_of_oversize cur rx receiving oversize)
    rw [Link.oversized, ← rx] at moved
    exact moved
  · obtain ⟨m, buffer⟩ := List.length_eq_one_iff.mp one
    refine of_moved (receiveByte_of_incomplete cur rx receiving ?_ ?_) <;> rw [buffer]
    · exact (lengthOversize_pair m b).trans (decide_eq_false (Nat.not_lt.mpr h))
    · exact (telegramComplete_cons m b []).trans (decide_eq_false (show ¬2 = b.toNat + 6 by omega))
  · intro m n rest buffer short
    refine of_moved (receiveByte_of_incomplete cur rx receiving ?_ ?_) <;> rw [buffer]
    · exact lengthOversize_longer m n b rest
    · refine (telegramComplete_cons m n (rest ++ [b])).trans (decide_eq_false ?_)
      rw [List.length_append, List.length_singleton]
      omega
  · exact of_moved (receiveByte_of_discarding cur rx discarding)
  · exact of_moved (receiveByte_of_overrun cur rx receiving h)
  · exact of_same (receiveByte_of_stray cur rx receiving h)

namespace Sys2Proof.Machine

/-! ### Line faults (R176 to R178, R182) -/

section
variable {l : Link}

theorem lostTelegram_of_discarding (discarding : l.discarding = true) : l.lostTelegram = l.startGap :=
  if_pos discarding

theorem lostTelegram_of_receiving (receiving : l.discarding = false) : l.lostTelegram = l.overrun :=
  if_neg (ne_true_of_eq_false receiving)

theorem receives_of_replying (rx : l.rx = .replying) : l.receives = false := by simp [Link.receives, rx]

theorem receives_of_discarding (discarding : l.discarding = true) : l.receives = false := by
  simp [Link.receives, discarding]

/-- The gap timer runs out in a telegram: a gap, unless the telegram was discarded (R176). -/
theorem gapExpired_of_inTelegram (rx : l.rx = .inTelegram) (receiving : l.discarding = false) :
    l.gapExpired = { l with gap := none, rx := .hunting, buffer := [], flags := { l.flags with gap := true } } := by
  simp only [Link.gapExpired, rx, receiving]

theorem gapExpired_of_discarding (rx : l.rx = .inTelegram) (discarding : l.discarding = true) :
    l.gapExpired = { l with gap := none, rx := .hunting, discarding := false } := by
  simp only [Link.gapExpired, rx, discarding]

theorem gapExpired_of_replying (rx : l.rx = .replying) (discarding : l.discarding = true) :
    l.gapExpired = { l with gap := none, discarding := false } := by
  simp only [Link.gapExpired, rx, discarding]

end

theorem linkFaults : Rules.LinkFaults := by
  intro s l gap ends
  have moved {c : Instr} {f : Link → Link} {k : Link} (row : exec c s = .next (s.withPart (s.part.modLink f)))
      (h : f l = k) : ends c k :=
    row.trans (next_withPart s (congrArg (fun k : Link => { s.part with link := k }) h))
  refine ⟨fun n receives => moved rfl (if_pos receives), fun receives => moved rfl (if_pos receives),
    fun running => ⟨fun rx receiving => ?_, fun rx discarding => ?_, fun rx discarding => ?_⟩,
    fun rx => ⟨fun receiving => ?_, fun discarding => ?_⟩⟩
  · exact moved rfl ((if_pos running).trans (gapExpired_of_inTelegram rx receiving))
  · exact moved rfl ((if_pos running).trans (gapExpired_of_discarding rx discarding))
  · exact moved rfl ((if_pos running).trans (gapExpired_of_replying rx discarding))
  · exact moved rfl ((if_pos (beq_iff_eq.mpr rx)).trans (lostTelegram_of_receiving receiving))
  · exact moved rfl ((if_pos (beq_iff_eq.mpr rx)).trans (lostTelegram_of_discarding discarding))

/-! ### Refused telegrams (R179, R181) -/

theorem refuseKind_of_receives {p : Part} (receives : p.link.receives = true) (kind tag : Byte) :
    refuseKind kind tag p = p.arrived.reply kind tag (.refusal .kind) :=
  if_pos receives

theorem refuseLength_of_receives {p : Part} (receives : p.link.receives = true) (kind tag : Byte) :
    refuseLength kind tag p = (p.modLink Link.completed).reply kind tag (.refusal .length) :=
  if_pos receives

theorem kindAndLengthRefused : Rules.KindAndLengthRefused := by
  intro tag kind length s receives p sends
  exact ⟨next_withPart s (refuseKind_of_receives receives kind tag),
    next_withPart s (refuseLength_of_receives receives kind tag), fun k q body r => ⟨rfl, rfl⟩⟩

/-! ### Lost telegrams (R177, R182) -/

theorem RoundAtEnd.take_of_notDue {p : Part} (notDue : p.roundDue = false) (cur : Currents) (r : RoundAtEnd) :
    r.take cur p = p := by
  cases r with
  | none => rfl
  | due => exact takeDueRound_of_notDue notDue cur
  | unseen => exact takeUnseenRound_of_notDue notDue

section
variable {c : Instr} {s : State} (lost : s.part.link.receives = false)
include lost

theorem exec_request_of_lost (request : isRequest c = true) (notDue : s.part.roundDue = false) :
    exec c s = .next (s.withPart (s.part.modLink Link.lostTelegram)) := by
  obtain ⟨k, tag, body, cur, spelled⟩ := exists_rowOf request
  obtain ⟨r, served⟩ := servesBody_of_rowOf spelled
  have gone : Machine.request k tag (serveKind k body cur) s.part = s.part.modLink Link.lostTelegram :=
    if_neg (ne_true_of_eq_false lost)
  refine (served s).trans (next_withPart s ?_)
  rw [gone]
  exact RoundAtEnd.take_of_notDue (p := s.part.modLink Link.lostTelegram) notDue cur r

theorem exec_fault_of_lost (request : isRequest c = false) (brings : bringsTelegram c = true) :
    exec c s = .next (s.withPart (s.part.modLink Link.lostTelegram)) := by
  have no := ne_true_of_eq_false lost
  have lostLink {f : Link → Link} (h : f s.part.link = s.part.link.lostTelegram) :
      s.part.modLink f = s.part.modLink Link.lostTelegram :=
    congrArg (fun k : Link => { s.part with link := k }) h
  cases c <;> cases request <;> cases brings
  case unknownKind => exact next_withPart s (if_neg no)
  case refusalLength => exact next_withPart s (if_neg no)
  case checkFailure => exact next_withPart s (lostLink (if_neg no))
  case oversize => exact next_withPart s (lostLink (if_neg no))

/-- Whatever telegram arrives where none can be received, the link controller loses it. -/
theorem exec_of_lost (brings : bringsTelegram c = true) (notDue : s.part.roundDue = false) :
    exec c s = .next (s.withPart (s.part.modLink Link.lostTelegram)) := by
  cases request : isRequest c with
  | true => exact exec_request_of_lost lost request notDue
  | false => exact exec_fault_of_lost lost request brings

end

theorem telegramLostWhileReplying : Rules.TelegramLostWhileReplying := by
  intro c s brings l gap notDue
  have lost {k : Link} (no : l.receives = false) (h : l.lostTelegram = k) :
      exec c s = .next (s.withPart { s.part with link := k }) :=
    (exec_of_lost no brings notDue).trans
      (next_withPart s (congrArg (fun k : Link => { s.part with link := k }) h))
  refine ⟨fun rx receiving => ?_, fun discarding => ?_⟩
  · exact lost (receives_of_replying rx) (lostTelegram_of_receiving receiving)
  · exact lost (receives_of_discarding discarding) (lostTelegram_of_discarding discarding)

end Sys2Proof.Machine

open Sys2Proof Sys2Proof.Machine in
/-- Settles O52, from the line faults, the refusals of kind and length, and the telegrams that are lost. -/
theorem damagedAndRefusedTelegrams : Obligations.DamagedAndRefusedTelegrams :=
  ⟨linkFaults, kindAndLengthRefused, telegramLostWhileReplying⟩
end

section
/-! The byte that completes a telegram (chapter 11): O51. -/

namespace Sys2Proof.Machine

/-! ### A complete telegram taken apart (R171, R178) -/

section
variable (m : Byte) (covered : List Byte) (check : List Byte)

/-- Whatever marker and covered bytes a complete telegram has, its check is compared with theirs (R172). -/
theorem checkAgrees_append (two : check.length = 2) :
    checkAgrees (m :: (covered ++ check)) = (check == crcBytes covered) := by
  have first : (m :: (covered ++ check)).length - 2 = (m :: covered).length := by simp [two]
  have middle : (m :: (covered ++ check)).length - 3 = covered.length := by simp [two]
  rw [checkAgrees, first, middle, ← List.cons_append, List.drop_left, List.cons_append, List.drop_one, List.tail_cons,
    List.take_left]

end

section
variable (kind tag : Byte) (body : List Byte)

theorem checkAgrees_telegram : checkAgrees (telegram kind tag body) = true := by
  rw [telegram, checkAgrees_append _ _ _ (length_crcBytes _), beq_self_eq_true]

theorem byteAt_telegram_kind : byteAt (telegram kind tag body) 2 = kind := byteAt_of_holds rfl

theorem byteAt_telegram_tag : byteAt (telegram kind tag body) 3 = tag := byteAt_of_holds rfl

theorem bodyOf_telegram : bodyOf (telegram kind tag body) = body := by
  have length : (telegram kind tag body).length - 6 = body.length := by simp [telegram, coveredBytes]
  rw [bodyOf, length]
  exact List.take_left

theorem takeTelegram_telegram (p : Part) (cur : Currents) :
    p.takeTelegram (telegram kind tag body) cur = p.testTelegram kind tag body cur := by
  rw [Part.takeTelegram, if_pos (checkAgrees_telegram kind tag body), byteAt_telegram_kind, byteAt_telegram_tag,
    bodyOf_telegram]

theorem lengthOversize_telegram : lengthOversize (telegram kind tag body) = false := rfl

theorem telegramComplete_telegram (fits : body.length ≤ 240) : telegramComplete (telegram kind tag body) = true := by
  have length : (codeByte body.length).toNat = body.length := by
    rw [codeByte, BitVec.toNat_ofNat]
    omega
  refine (telegramComplete_cons _ _ _).trans (decide_eq_true ?_)
  simp [length]

end

/-! ### The tests of a telegram (R179) -/

theorem byte_of_ofByte {kind : Byte} {k : RequestKind} (h : RequestKind.ofByte kind = some k) : k.byte = kind :=
  beq_iff_eq.mp (List.find?_some (p := fun k : RequestKind => k.byte == kind) h)

section
variable {p : Part} {kind tag : Byte} {body : List Byte} {cur : Currents} (receives : p.link.receives = true)
include receives

theorem testTelegram_of_unknown (unknown : RequestKind.ofByte kind = none) :
    p.testTelegram kind tag body cur = refuseKind kind tag p := by
  simp only [Part.testTelegram, unknown, refuseKind, if_pos receives]

variable {k : RequestKind} (known : RequestKind.ofByte kind = some k)
include known

theorem testTelegram_of_unfit (unfit : k.bodyFits body.length = false) :
    p.testTelegram kind tag body cur = refuseLength kind tag p := by
  simp [Part.testTelegram, known, unfit, refuseLength, receives]

theorem testTelegram_of_fit (fits : k.bodyFits body.length = true) :
    p.testTelegram kind tag body cur = request k tag (serveKind k body cur) p := by
  simp only [Part.testTelegram, known, if_pos fits, request, if_pos receives, byte_of_ofByte known]

end

/-! ### A code that names no row (R184, R198) -/

theorem serveKind_of_noRow {k : RequestKind} {tag : Byte} {body : List Byte} {cur : Currents}
    (h : rowOf k tag body cur = none) (p : Part) : serveKind k body cur p = (p, .refusal .range) := by
  cases k
  case unitOrder =>
    simp only [rowOf, unitOrderRow] at h
    split at h <;> cases h
    simp [serveKind, serveUnitOrder, *]
  case sluiceOrder =>
    simp only [rowOf] at h
    split at h <;> cases h
    simp [serveKind, serveSluiceOrder, *]
  case rakeOrder =>
    simp only [rowOf] at h
    split at h <;> cases h
    simp [serveKind, serveRakeOrder, *]
  case setMode =>
    simp only [rowOf] at h
    split at h <;> cases h
    simp [serveKind, serveSetMode, *]
  case writeConfig =>
    simp only [rowOf, writeConfigRow] at h
    split at h <;> cases h
    next link station gauge unit =>
    have unnamed : 3 < (byteAt body 0).toNat := by
      simp only [imp_false] at link station gauge unit
      omega
    exact serveWriteConfig_of_unnamed (recordNamed_eq_none (.inr (.inr (.inr unnamed))))
  all_goals cases h

/-! ### The last byte -/

section
variable {b : Byte} {cur : Currents} {s : State} (rx : s.part.link.rx = .inTelegram)
  (receiving : s.part.link.discarding = false)
include rx receiving

theorem exec_byteReceived_of_complete (fits : lengthOversize (s.part.link.buffer ++ [b]) = false)
    (complete : telegramComplete (s.part.link.buffer ++ [b]) = true) :
    exec (.byteReceived b cur) s
      = .next (s.withPart ((s.part.takeTelegram (s.part.link.buffer ++ [b]) cur).takeDueRound cur)) :=
  next_withPart s (congrArg (·.takeDueRound cur) (receiveByte_of_complete cur rx receiving fits complete))

theorem exec_byteReceived_of_telegram {kind tag : Byte} {body : List Byte} (short : body.length ≤ 240)
    (bytes : s.part.link.buffer ++ [b] = telegram kind tag body) :
    exec (.byteReceived b cur) s
      = .next (s.withPart ((s.part.testTelegram kind tag body cur).takeDueRound cur)) := by
  rw [← takeTelegram_telegram, ← bytes]
  refine exec_byteReceived_of_complete rx receiving ?_ ?_ <;> rw [bytes]
  · exact lengthOversize_telegram kind tag body
  · exact telegramComplete_telegram kind tag body short

theorem exec_byteReceived_of_badCheck {m n hi lo : Byte} {covered : List Byte}
    (bytes : s.part.link.buffer ++ [b] = m :: n :: covered ++ [hi, lo]) (length : covered.length = n.toNat + 2)
    (bad : [hi, lo] ≠ crcBytes (n :: covered)) :
    exec (.byteReceived b cur) s = .next (s.withPart ((s.part.modLink Link.checkFailed).takeDueRound cur)) := by
  have fails : ¬checkAgrees (m :: n :: covered ++ [hi, lo]) = true := by
    rw [List.cons_append, checkAgrees_append _ _ _ rfl, beq_iff_eq]
    exact bad
  have failed : s.part.takeTelegram (s.part.link.buffer ++ [b]) cur = s.part.modLink Link.checkFailed := by
    rw [bytes, Part.takeTelegram, if_neg fails]
  rw [← failed]
  refine exec_byteReceived_of_complete rx receiving ?_ ?_ <;> rw [bytes]
  · simpa using lengthOversize_longer m n lo (covered ++ [hi])
  · refine (telegramComplete_cons m n _).trans (decide_eq_true ?_)
    simp [length]

end

/-- A row that leaves the part as the byte does leaves no round due either. -/
theorem takeDueRound_of_row {row : Instr} {s t : State} {q : Part} (e : exec row s = .next t)
    (same : exec row s = .next (s.withPart q)) (notDue : t.part.roundDue = false) (cur : Currents) :
    (Host.Outcome.next (s.withPart (q.takeDueRound cur)) : Result) = .next t := by
  rw [e] at same
  injection same with same
  subst same
  exact next_withPart s (takeDueRound_of_notDue notDue cur)

end Sys2Proof.Machine

open Sys2Proof Sys2Proof.Machine in
/-- Settles O51: the byte's event serves the body that the telegram carries, which is what its row does. -/
theorem lastByteServesTelegram : Obligations.LastByteServesTelegram := by
  intro b cur s t rx receiving notDue
  have receives : s.part.link.receives = true := (Link.receives_iff _).mpr ⟨by simp [rx], receiving⟩
  refine ⟨fun kind tag body short bytes => ?_, fun m n hi lo covered bytes _ length bad e => ?_⟩
  · have last := exec_byteReceived_of_telegram (cur := cur) rx receiving short bytes
    refine ⟨fun k row known fits spelled => ?_, fun k known fits unnamed still => ?_, fun k known unfit e => ?_,
      fun unknown e => ?_⟩
    · rw [testTelegram_of_fit receives known fits] at last
      refine ⟨_, last, ?_⟩
      obtain ⟨r, served⟩ := servesBody_of_rowOf spelled
      cases r with
      | none => exact .inl (served s)
      | due => exact .inr (.inl (served s))
      | unseen => exact .inr (.inr (served s))
    · rw [testTelegram_of_fit receives known fits,
        request_of_receives receives (serveKind_of_noRow unnamed _)] at last
      refine last.trans (next_withPart s (takeDueRound_of_notDue ?_ cur))
      exact (roundDue_arrived s.part).trans still
    · rw [testTelegram_of_unfit receives known unfit] at last
      exact last.trans (takeDueRound_of_row e rfl notDue cur)
    · rw [testTelegram_of_unknown receives unknown] at last
      exact last.trans (takeDueRound_of_row e rfl notDue cur)
  · have last := exec_byteReceived_of_badCheck (cur := cur) rx receiving bytes length bad
    have row : exec .checkFailure s = .next (s.withPart (s.part.modLink Link.checkFailed)) :=
      next_withPart s (congrArg (fun k : Link => { s.part with link := k }) (if_pos receives))
    exact last.trans (takeDueRound_of_row e row notDue cur)
end

section
/-! The layouts of the link and of the stored image, read back (chapters 11 to 13): O59, O60. -/

namespace Sys2Proof.Machine

/-! ### Fields within fields -/

namespace Holds

variable {bs field inner rest : List Byte} {off i next : Nat}

theorem within (h : Holds bs off field) (k : Holds field i inner) : Holds bs (off + i) inner := by
  have short : inner.length ≤ field.length - i := by
    rw [← List.length_drop, ← k]
    simp
  calc (bs.drop (off + i)).take inner.length
      = ((bs.drop off).drop i).take (min inner.length (field.length - i)) := by
        rw [List.drop_drop, Nat.min_eq_left short]
    _ = (((bs.drop off).take field.length).drop i).take inner.length := by rw [List.drop_take, List.take_take]
    _ = inner := by rw [h, k]

theorem self (bs : List Byte) : Holds bs 0 bs := List.take_length

/-- Of two fields in a row, the first stands where both do and the second where it ends. -/
theorem split (h : Holds bs off (field ++ rest)) (ends : off + field.length = next) :
    Holds bs off field ∧ Holds bs next rest := by
  have first : Holds (field ++ rest) 0 field := List.take_left
  have second : Holds (field ++ rest) field.length rest := by
    rw [Holds, List.drop_left, List.take_length]
  exact ⟨h.within first, ends ▸ h.within second⟩

end Holds

/-! ### Numbers, codes, marks and levels read back (R185) -/

theorem toNat_codeByte {n : Nat} (h : n < 256) : (codeByte n).toNat = n := by
  rw [codeByte, BitVec.toNat_ofNat, Nat.mod_eq_of_lt h]

theorem beInt_two (z : Int) : beInt 2 z = beBytes 2 (BitVec.ofInt 16 z).toNat := by
  rw [beInt, BitVec.toNat_ofInt]
  rfl

theorem toInt_ofInt_word {z : Int} (low : -32768 ≤ z) (high : z ≤ 32767) : (BitVec.ofInt 16 z).toInt = z :=
  BitVec.toInt_ofInt_eq_self (by decide) (by simpa using low) (by simp; omega)

section
variable {bs : List Byte} {off : Nat}

theorem sliceAt_of_holds {field : List Byte} {n : Nat} (h : Holds bs off field) (length : field.length = n) :
    sliceAt bs off n = field := by
  rw [sliceAt, ← length, h]

theorem fieldAt_of_holds_code {n : Nat} (h : Holds bs off [codeByte n]) (small : n < 256) : fieldAt bs off 1 = n :=
  (fieldAt_of_holds_byte h).trans (toNat_codeByte small)

theorem mark_of_holds {b : Bool} (h : Holds bs off [markByte b]) : (fieldAt bs off 1 != 0) = b := by
  rw [fieldAt_of_holds_byte h]
  cases b <;> rfl

theorem signedAt_of_holds {z : Int} (h : Holds bs off (beInt 2 z)) (low : -32768 ≤ z) (high : z ≤ 32767) :
    signedAt bs off = z := by
  rw [beInt_two] at h
  rw [signedAt, fieldAt_of_holds h (BitVec.isLt _), signed16_toNat, toInt_ofInt_word low high]

end

/-! ### Settings that a write leaves stay within their fields -/

theorem clampNat_le {lo hi n m : Nat} (low : lo ≤ m) (high : hi ≤ m) : clampNat lo hi n ≤ m := by
  rw [clampNat]
  omega

theorem clampUnlessZero_le {lo hi n m : Nat} (low : lo ≤ m) (high : hi ≤ m) : clampUnlessZero lo hi n ≤ m := by
  unfold clampUnlessZero
  split
  · exact Nat.zero_le m
  · exact clampNat_le low high

theorem clampInt_bounds {lo hi z : Int} (h : lo ≤ hi) : lo ≤ clampInt lo hi z ∧ clampInt lo hi z ≤ hi := by
  rw [clampInt]
  omega

/-! ### Link and gauge records (R198) -/

theorem BaudRate.code_lt (b : BaudRate) : b.code < 256 := by
  cases b with
  | unnamed c => exact c.isLt
  | _ => decide

theorem GapLimit.code_lt (g : GapLimit) : g.code < 256 := by
  cases g with
  | unnamed c => exact c.isLt
  | _ => decide

theorem Outlet.code_lt (o : Outlet) : o.code < 256 := by
  cases o with
  | unnamed c => exact c.isLt
  | _ => decide

theorem RankingMode.code_lt (m : RankingMode) : m.code < 256 := by
  cases m with
  | unnamed c => exact c.isLt
  | _ => decide

theorem decodeLink_encodeLink {l : LinkSettings} (named : l.named = true) : decodeLink (encodeLink l) = l := by
  obtain ⟨baud, gap⟩ := Bool.and_eq_true_iff.mp named
  rw [encodeLink, decodeLink_pair, toNat_codeByte l.baud.code_lt, toNat_codeByte l.gapLimit.code_lt,
    BaudRate.ofCode_code baud, GapLimit.ofCode_code gap]

theorem decodeGauge_encodeGauge {r : GaugeRecord} (written : r.asWritten) : decodeGauge (encodeGauge r) = r := by
  have zeroClamped : clampInt (-20000) 20000 r.zero = r.zero := congrArg GaugeRecord.zero written
  have spanClamped : clampNat 100 40000 r.span = r.span := congrArg GaugeRecord.span written
  obtain ⟨low, high⟩ := zeroClamped ▸ clampInt_bounds (z := r.zero) (show (-20000 : Int) ≤ 20000 by decide)
  have short : r.span ≤ 40000 := spanClamped ▸ clampNat_le (by decide) (by decide)
  have fitted : (fieldAt (encodeGauge r) 0 1 != 0) = r.fitted := mark_of_holds rfl
  have zero : signedAt (encodeGauge r) 1 = r.zero := signedAt_of_holds rfl (by omega) (by omega)
  have span : fieldAt (encodeGauge r) 3 2 = r.span := fieldAt_of_holds rfl (by omega)
  rw [decodeGauge, fitted, zero, span]

end Sys2Proof.Machine
end

section
/-! Station and unit records, plan entries, read back (chapter 13). -/

namespace Sys2Proof.Machine

/-! ### The station record (R198) -/

theorem lt_of_clamped {lo hi n m : Nat} (clamped : clampNat lo hi n = n) (bounds : max lo hi < m) : n < m :=
  clamped ▸ lt_of_le_of_lt (clampNat_le (le_max_left lo hi) (le_max_right lo hi)) bounds

section
variable {bs : List Byte} {off lo hi n k : Nat}

/-- A number that its clamp leaves alone is read back from a field that can hold the clamp's bounds. -/
theorem fieldAt_of_clamped (h : Holds bs off (beBytes k n)) (clamped : clampNat lo hi n = n)
    (bounds : max lo hi < 256 ^ k := by decide) : fieldAt bs off k = n :=
  fieldAt_of_holds h (lt_of_clamped clamped bounds)

theorem codeAt_of_clamped (h : Holds bs off [codeByte n]) (clamped : clampNat lo hi n = n)
    (bounds : max lo hi < 256 := by decide) : fieldAt bs off 1 = n :=
  fieldAt_of_holds_code h (lt_of_clamped clamped bounds)

theorem fieldAt_of_clampedUnlessZero (h : Holds bs off (beBytes k n)) (clamped : clampUnlessZero lo hi n = n)
    (bounds : max lo hi < 256 ^ k := by decide) : fieldAt bs off k = n :=
  fieldAt_of_holds h
    (clamped ▸ lt_of_le_of_lt (clampUnlessZero_le (le_max_left lo hi) (le_max_right lo hi)) bounds)

end

/-- The station record that holds in `bs` is what its 61 bytes give: each field where the one before it ends. -/
theorem decodeStation_of_holds {bs : List Byte} {r : StationRecord} (h : Holds bs 0 (encodeStation r))
    (written : r.asWritten) : decodeStation bs = r := by
  obtain ⟨clamped, valid⟩ := written
  obtain ⟨stopLow, stopHigh, highLow, highHigh, -, mode, order, -, -⟩ := (stationValid_iff r).mp valid
  have targetClamped : clampInt (-20000) 20000 r.fallbackTarget = r.fallbackTarget :=
    congrArg StationRecord.fallbackTarget clamped
  obtain ⟨targetLow, targetHigh⟩ :=
    targetClamped ▸ clampInt_bounds (z := r.fallbackTarget) (show (-20000 : Int) ≤ 20000 by decide)
  have openBound : clampNat 50 2000 r.openMargin ≤ 2000 := clampNat_le (by decide) (by decide)
  have closeBound : max 20 (clampNat 50 2000 r.openMargin - 10) < 256 ^ 2 := by omega
  have named : r.rankingMode.named = true := (named_rankingMode_iff _).mpr mode
  have six : 17 + r.fixedOrder.length = 23 := by rw [order.length_eq]; rfl
  unfold encodeStation at h
  simp only [List.append_assoc] at h
  obtain ⟨stopLevel, h⟩ := h.split (next := 2) rfl
  obtain ⟨highLevel, h⟩ := h.split (next := 4) rfl
  obtain ⟨area, h⟩ := h.split (next := 8) rfl
  obtain ⟨drawdown, h⟩ := h.split (next := 10) rfl
  obtain ⟨interval, h⟩ := h.split (next := 12) rfl
  obtain ⟨windows, h⟩ := h.split (next := 14) rfl
  obtain ⟨window, evalInterval⟩ := windows.split (field := [_]) (next := 13) rfl
  obtain ⟨hysteresis, h⟩ := h.split (next := 16) rfl
  obtain ⟨rankingMode, h⟩ := h.split (next := 17) rfl
  obtain ⟨fixedOrder, h⟩ := h.split (next := 23) six
  obtain ⟨stagger, h⟩ := h.split (next := 24) rfl
  obtain ⟨stationBudget, h⟩ := h.split (next := 26) rfl
  obtain ⟨curtailedBudget, h⟩ := h.split (next := 28) rfl
  obtain ⟨shedDelay, h⟩ := h.split (next := 29) rfl
  obtain ⟨settleTime, h⟩ := h.split (next := 31) rfl
  obtain ⟨supervisionTimeout, h⟩ := h.split (next := 33) rfl
  obtain ⟨holdLimit, h⟩ := h.split (next := 35) rfl
  obtain ⟨agreementLimit, h⟩ := h.split (next := 37) rfl
  obtain ⟨fallbackHead, h⟩ := h.split (next := 39) rfl
  obtain ⟨openMargin, h⟩ := h.split (next := 41) rfl
  obtain ⟨closeMargin, h⟩ := h.split (next := 43) rfl
  obtain ⟨travelTimeout, h⟩ := h.split (next := 45) rfl
  obtain ⟨cleanThreshold, h⟩ := h.split (next := 47) rfl
  obtain ⟨restrictThreshold, h⟩ := h.split (next := 49) rfl
  obtain ⟨tripThreshold, h⟩ := h.split (next := 51) rfl
  obtain ⟨rakeTimeout, h⟩ := h.split (next := 53) rfl
  obtain ⟨rakeInterval, h⟩ := h.split (next := 57) rfl
  obtain ⟨fallbackTarget, h⟩ := h.split (next := 59) rfl
  unfold decodeStation
  rw [signedAt_of_holds stopLevel (by omega) (by omega),
    signedAt_of_holds highLevel (by omega) (by omega),
    fieldAt_of_clamped area (congrArg StationRecord.area clamped),
    fieldAt_of_clamped drawdown (congrArg StationRecord.drawdown clamped),
    fieldAt_of_clamped interval (congrArg StationRecord.interval clamped),
    codeAt_of_clamped window (congrArg StationRecord.window clamped),
    codeAt_of_clamped evalInterval (congrArg StationRecord.evalInterval clamped),
    fieldAt_of_clamped hysteresis (congrArg StationRecord.hysteresis clamped),
    fieldAt_of_holds_code rankingMode r.rankingMode.code_lt, RankingMode.ofCode_code named,
    sliceAt_of_holds (n := 6) fixedOrder order.length_eq,
    codeAt_of_clamped stagger (congrArg StationRecord.stagger clamped),
    fieldAt_of_clamped stationBudget (congrArg StationRecord.stationBudget clamped),
    fieldAt_of_clamped curtailedBudget (congrArg StationRecord.curtailedBudget clamped),
    codeAt_of_clamped shedDelay (congrArg StationRecord.shedDelay clamped),
    fieldAt_of_clamped settleTime (congrArg StationRecord.settleTime clamped),
    fieldAt_of_clampedUnlessZero supervisionTimeout (congrArg StationRecord.supervisionTimeout clamped),
    fieldAt_of_clamped holdLimit (congrArg StationRecord.holdLimit clamped),
    fieldAt_of_clamped agreementLimit (congrArg StationRecord.agreementLimit clamped),
    fieldAt_of_clamped fallbackHead (congrArg StationRecord.fallbackHead clamped),
    fieldAt_of_clamped openMargin (congrArg StationRecord.openMargin clamped),
    fieldAt_of_clamped closeMargin (congrArg StationRecord.closeMargin clamped) closeBound,
    fieldAt_of_clamped travelTimeout (congrArg StationRecord.travelTimeout clamped),
    fieldAt_of_clamped cleanThreshold (congrArg StationRecord.cleanThreshold clamped),
    fieldAt_of_clamped restrictThreshold (congrArg StationRecord.restrictThreshold clamped),
    fieldAt_of_clamped tripThreshold (congrArg StationRecord.tripThreshold clamped),
    fieldAt_of_clamped rakeTimeout (congrArg StationRecord.rakeTimeout clamped),
    fieldAt_of_clampedUnlessZero rakeInterval (congrArg StationRecord.rakeInterval clamped),
    signedAt_of_holds fallbackTarget (by omega) (by omega),
    fieldAt_of_clamped h (congrArg StationRecord.fallbackBand clamped)]

/-! ### Unit records (R198) -/

theorem pointAt_of_holds {bs : List Byte} {off : Nat} {c : CurvePoint} (h : Holds bs off (encodePoint c))
    (head : c.head ≤ 30000) (flow : c.flow ≤ 20000) (power : c.power ≤ 2000) : pointAt bs off = c := by
  rw [encodePoint, List.append_assoc] at h
  obtain ⟨headAt, h⟩ := h.split (next := off + 2) rfl
  obtain ⟨flowAt, powerAt⟩ := h.split (next := off + 4) rfl
  rw [pointAt, fieldAt_of_holds headAt (by omega), fieldAt_of_holds flowAt (by omega),
    fieldAt_of_holds powerAt (by omega)]

/-- The points of a curve, in six bytes each, are read back in order; what stands behind them is not looked at. -/
theorem pointsAt_of_holds {bs : List Byte} (cs : List CurvePoint) : ∀ {off n : Nat}, cs.length ≤ n →
    Holds bs off (encodePoints n cs) → (∀ c ∈ cs, c.head ≤ 30000 ∧ c.flow ≤ 20000 ∧ c.power ≤ 2000) →
    pointsAt bs off cs.length = cs := by
  induction cs with
  | nil => exact fun _ _ _ => rfl
  | cons c cs ih =>
    intro off n short h small
    obtain ⟨n, rfl⟩ : ∃ k, n = k + 1 := ⟨n - 1, by simp at short; omega⟩
    obtain ⟨first, others⟩ := h.split (field := encodePoint c) (next := off + 6) rfl
    obtain ⟨head, flow, power⟩ := small c List.mem_cons_self
    rw [List.length_cons, pointsAt, pointAt_of_holds first head flow power,
      ih (Nat.le_of_succ_le_succ short) others fun d hd => small d (List.mem_cons_of_mem c hd)]

/-- The unit record that holds in `bs` is what its 54 bytes give. -/
theorem decodeUnit_of_holds {bs : List Byte} {r : UnitRecord} (h : Holds bs 0 (encodeUnit r))
    (written : r.asWritten) : decodeUnit bs = r := by
  obtain ⟨clamped, named, valid⟩ := written
  obtain ⟨-, atMostSix, -, small⟩ := (curveValid_iff r.curve).mp valid
  have points : 5 + (encodePoints 6 r.curve).length = 41 := by rw [length_encodePoints]
  unfold encodeUnit at h
  simp only [List.append_assoc] at h
  obtain ⟨enabledOutlet, h⟩ := h.split (next := 2) rfl
  obtain ⟨enabled, outlet⟩ := enabledOutlet.split (field := [_]) (next := 1) rfl
  obtain ⟨loss, h⟩ := h.split (next := 4) rfl
  obtain ⟨count, h⟩ := h.split (next := 5) rfl
  obtain ⟨curve, h⟩ := h.split points
  obtain ⟨minRun, h⟩ := h.split (next := 43) rfl
  obtain ⟨minRest, h⟩ := h.split (next := 45) rfl
  obtain ⟨maxStarts, h⟩ := h.split (next := 46) rfl
  obtain ⟨primeTimeout, h⟩ := h.split (next := 48) rfl
  obtain ⟨timeouts, h⟩ := h.split (next := 51) rfl
  obtain ⟨startTimeout, timeouts⟩ := timeouts.split (field := [_]) (next := 49) rfl
  obtain ⟨stopTimeout, runLossDelay⟩ := timeouts.split (field := [_]) (next := 50) rfl
  obtain ⟨headLimitDwell, startRetries⟩ := h.split (next := 53) rfl
  unfold decodeUnit
  rw [mark_of_holds enabled,
    fieldAt_of_holds_code outlet r.outlet.code_lt, Outlet.ofCode_code named,
    fieldAt_of_clamped loss (congrArg UnitRecord.loss clamped),
    fieldAt_of_holds_code count (by omega), curveAt_of_le atMostSix, pointsAt_of_holds r.curve atMostSix curve small,
    fieldAt_of_clamped minRun (congrArg UnitRecord.minRun clamped),
    fieldAt_of_clamped minRest (congrArg UnitRecord.minRest clamped),
    codeAt_of_clamped maxStarts (congrArg UnitRecord.maxStarts clamped),
    fieldAt_of_clamped primeTimeout (congrArg UnitRecord.primeTimeout clamped),
    codeAt_of_clamped startTimeout (congrArg UnitRecord.startTimeout clamped),
    codeAt_of_clamped stopTimeout (congrArg UnitRecord.stopTimeout clamped),
    codeAt_of_clamped runLossDelay (congrArg UnitRecord.runLossDelay clamped),
    fieldAt_of_clamped headLimitDwell (congrArg UnitRecord.headLimitDwell clamped),
    codeAt_of_clamped startRetries (congrArg UnitRecord.startRetries clamped)]

/-! ### Plan entries (R189) -/

/-- The marks of a plan entry say which of its three optional fields are there. -/
theorem getLsbD_marks (a b c : Bool) :
    (codeByte (weight a 1 + weight b 2 + weight c 4)).getLsbD 0 = a
      ∧ (codeByte (weight a 1 + weight b 2 + weight c 4)).getLsbD 1 = b
      ∧ (codeByte (weight a 1 + weight b 2 + weight c 4)).getLsbD 2 = c := by
  revert a b c
  decide

/-- An optional field whose place holds its value, and whose mark says whether it is there. -/
theorem marked_eq {α : Type} {o : Option α} {d : α} : (if o.isSome then some (o.getD d) else none) = o := by
  cases o <;> rfl

/-- The fields of PLAN_ADD that give this entry. -/
def planWordsOf (e : PlanEntry) : PlanWords where
  time := e.time
  target := BitVec.ofInt 16 e.target
  marks := codeByte (weight e.band.isSome 1 + weight e.budget.isSome 2 + weight e.inhibit.isSome 4)
  band := BitVec.ofNat 16 (e.band.getD 0)
  budget := BitVec.ofNat 16 (e.budget.getD 0)
  inhibit := markByte (e.inhibit.getD false)

section
variable {e : PlanEntry}

theorem toNat_word {o : Option Nat} (fits : ∀ b, o = some b → b ≤ 65535) :
    (BitVec.ofNat 16 (o.getD 0)).toNat = o.getD 0 := by
  cases o with
  | none => rfl
  | some b =>
    have small := fits b rfl
    rw [BitVec.toNat_ofNat, Option.getD_some, Nat.mod_eq_of_lt (by omega)]

theorem encodePlanWords_planWordsOf (band : ∀ b, e.band = some b → b ≤ 65535)
    (budget : ∀ b, e.budget = some b → b ≤ 65535) : encodePlanWords (planWordsOf e) = encodePlanEntry e := by
  rw [encodePlanWords, planWordsOf, encodePlanEntry, toNat_word band, toNat_word budget, beInt_two]

theorem planEntryOf_planWordsOf (low : -32768 ≤ e.target) (high : e.target ≤ 32767)
    (band : ∀ b, e.band = some b → b ≤ 65535) (budget : ∀ b, e.budget = some b → b ≤ 65535) :
    planEntryOf (planWordsOf e) = e := by
  obtain ⟨bandMark, budgetMark, inhibitMark⟩ :=
    getLsbD_marks e.band.isSome e.budget.isSome e.inhibit.isSome
  have inhibit : (markByte (e.inhibit.getD false) != 0#8) = e.inhibit.getD false := by
    cases e.inhibit.getD false <;> rfl
  simp only [planEntryOf, planWordsOf, bandMark, budgetMark, inhibitMark, toInt_ofInt_word low high, toNat_word band,
    toNat_word budget, inhibit, marked_eq]

theorem length_encodePlanEntry (e : PlanEntry) : (encodePlanEntry e).length = 12 := rfl

end

end Sys2Proof.Machine
end

section
/-! Telegrams, numbers, event records and the stored image (chapters 11 to 13): O59, O60. -/

namespace Sys2Proof.Machine

/-! ### Numbers on the link (R185) -/

theorem beBytes_two (n : Nat) : beBytes 2 n = [BitVec.ofNat 8 (n / 256), BitVec.ofNat 8 n] := by
  simp [beBytes]

theorem beBytes_four (n : Nat) :
    beBytes 4 n
      = [BitVec.ofNat 8 (n / 16777216), BitVec.ofNat 8 (n / 65536), BitVec.ofNat 8 (n / 256), BitVec.ofNat 8 n] := by
  simp [beBytes]

/-- In two's complement a negative number stands for itself and the power above its width. -/
theorem beInt_eq {k : Nat} {z half : Int} (width : ((256 ^ k : Nat) : Int) = 2 * half) (low : -half ≤ z)
    (high : z < half) : beInt k z = beBytes k (if z < 0 then z + 2 * half else z).toNat := by
  rw [beInt, width]
  congr 2
  split
  · rw [← Int.add_emod_right]
    exact Int.emod_eq_of_lt (by omega) (by omega)
  · exact Int.emod_eq_of_lt (by omega) (by omega)

theorem numbersOnTheLink : Rules.NumbersOnTheLink :=
  ⟨beBytes_two, beBytes_four, fun _ low high => beInt_eq (half := 32768) rfl low (by omega),
    fun _ low high => beInt_eq (half := 2147483648) rfl low (by omega)⟩

/-! ### Telegrams and their check (R171, R172, R181) -/

theorem crcShift_eq (r : Word16) : crcShift r = if r.getLsbD 15 then (r <<< 1) ^^^ 0x1021#16 else r <<< 1 := by
  rw [crcShift, BitVec.msb_eq_getLsbD_last]

/-- Eight shifts follow each covered byte. -/
theorem crc16_append (bs : List Byte) (b : Byte) :
    crc16 (bs ++ [b]) = crcShift^[8] (crc16 bs ^^^ (b.setWidth 16 <<< 8)) := by
  rw [crc16, List.foldl_append]
  rfl

theorem telegramLayoutAndCheck : Rules.TelegramLayoutAndCheck := by
  refine ⟨fun kind tag body => ⟨?_, ?_⟩, fun kind tag body r => ⟨rfl, rfl⟩, rfl, by decide, by decide, by decide,
    fun bs b => ?_⟩
  · exact congrArg (fun check => marker :: (coveredBytes kind tag body ++ check)) (beBytes_two _)
  · simp [telegram, coveredBytes]
  · intro shift
    rw [crc16_append, show crcShift = shift from funext crcShift_eq]

/-! ### Event records (R189) -/

theorem eventRecordLayout : Rules.EventRecordLayout := by
  refine ⟨⟨rfl, rfl, rfl, rfl, rfl, rfl, rfl, rfl⟩, fun r => ?_⟩
  intro holds
  have unit : Holds (encodeRecord r) 6 [codeByte (unitField r.unit)] := rfl
  have value : Holds (encodeRecord r) 8 (beInt 4 (r.value.getD 0)) := rfl
  obtain ⟨someUnit, noUnit⟩ := unit.of_option (F := fun u => [codeByte (unitField u)])
  obtain ⟨someValue, noValue⟩ := value.of_option (F := fun v => beInt 4 (v.getD 0))
  exact ⟨rfl, rfl, rfl, rfl, someUnit, noUnit, rfl, someValue, noValue⟩

/-! ### Records read back (R198) -/

theorem length_encodeStation_of_written {r : StationRecord} (written : r.asWritten) :
    (encodeStation r).length = 61 := by
  obtain ⟨-, -, -, -, -, -, order, -, -⟩ := (stationValid_iff r).mp written.2
  rw [length_encodeStation, order.length_eq]
  rfl

theorem recordsReadBack : Rules.RecordsReadBack :=
  ⟨fun l named => ⟨decodeLink_encodeLink named, length_encodeLink l⟩,
    fun _ written => ⟨decodeStation_of_holds (Holds.self _) written, length_encodeStation_of_written written⟩,
    fun r written => ⟨decodeGauge_encodeGauge written, length_encodeGauge r⟩,
    fun r written => ⟨decodeUnit_of_holds (Holds.self _) written, length_encodeUnit r⟩,
    fun e low high band budget =>
      ⟨by rw [← encodePlanWords_planWordsOf band budget, decodePlanWords_encodePlanWords,
          planEntryOf_planWordsOf low high band budget], length_encodePlanEntry e⟩⟩

/-! ### The stored image (R197) -/

section
variable {c : WorkingCopy} (written : c.asWritten)
include written

theorem length_encodeConfig : (encodeConfig c).length = 408 := by
  obtain ⟨-, station, -, -⟩ := written
  unfold encodeConfig
  simp only [List.length_append, length_encodeLink, length_encodeStation_of_written station, length_encodeGauge,
    length_encodeUnit, List.length_cons, List.length_nil]

/-- The records stand one behind the other in the image, each where the one before it ends (log 12). -/
theorem decodeConfig_of_holds {bs : List Byte} (h : Holds bs 0 (encodeConfig c)) : decodeConfig bs = c := by
  obtain ⟨named, station, gauges, units⟩ := written
  have gauge {off : Nat} (n : ChannelName) (k : Holds bs off (encodeGauge (c.gauges.get n))) :
      decodeGauge (sliceAt bs off 5) = c.gauges.get n := by
    rw [sliceAt_of_holds k (length_encodeGauge _), decodeGauge_encodeGauge (gauges n)]
  have unit {off : Nat} (u : UnitNo) (k : Holds bs off (encodeUnit (c.units.get u))) :
      decodeUnit (sliceAt bs off 54) = c.units.get u := by
    rw [sliceAt_of_holds k (length_encodeUnit _), decodeUnit_of_holds (Holds.self _) (units u)]
  have ends {off : Nat} (r : UnitRecord) : off + (encodeUnit r).length = off + 54 := by rw [length_encodeUnit]
  unfold encodeConfig at h
  simp only [List.append_assoc] at h
  obtain ⟨linkAt, h⟩ := h.split (next := 2) rfl
  obtain ⟨stationAt, h⟩ := h.split (next := 63) (by rw [length_encodeStation_of_written station])
  obtain ⟨gaAt, h⟩ := h.split (next := 68) rfl
  obtain ⟨gbAt, h⟩ := h.split (next := 73) rfl
  obtain ⟨goAt, h⟩ := h.split (next := 78) rfl
  obtain ⟨gsAt, h⟩ := h.split (next := 83) rfl
  obtain ⟨u1At, h⟩ := h.split (next := 137) (ends _)
  obtain ⟨u2At, h⟩ := h.split (next := 191) (ends _)
  obtain ⟨u3At, h⟩ := h.split (next := 245) (ends _)
  obtain ⟨u4At, h⟩ := h.split (next := 299) (ends _)
  obtain ⟨u5At, h⟩ := h.split (next := 353) (ends _)
  obtain ⟨u6At, enables⟩ := h.split (next := 407) (ends _)
  have enabled : codeByte (fieldAt bs 407 1) = c.enables := byteAt_of_holds enables
  unfold decodeConfig
  rw [sliceAt_of_holds linkAt (length_encodeLink _), decodeLink_encodeLink named,
    sliceAt_of_holds stationAt (length_encodeStation_of_written station), decodeStation_of_holds (Holds.self _) station,
    gauge .ga gaAt, gauge .gb gbAt, gauge .go goAt, gauge .gs gsAt, unit .u1 u1At, unit .u2 u2At, unit .u3 u3At,
    unit .u4 u4At, unit .u5 u5At, unit .u6 u6At, enabled]
  rfl

end

theorem imageAgrees_iff (image : List Byte) :
    imageAgrees image = true ↔ image.length = 410 ∧ image.drop 408 = crcBytes (image.take 408) := by
  have rest (h : image.length = 410) : (image.drop 408).take 2 = image.drop 408 :=
    List.take_of_length_le (by rw [List.length_drop, h])
  rw [imageAgrees, Bool.and_eq_true, decide_eq_true_eq, beq_iff_eq]
  refine and_congr_right fun length => ?_
  rw [sliceAt, sliceAt, rest length, List.drop_zero]

end Sys2Proof.Machine

open Sys2Proof Sys2Proof.Machine in
/-- Settles O60, from the telegram and its check, numbers, the event record, and the records read back. -/
theorem layoutsOnTheLink : Obligations.LayoutsOnTheLink :=
  ⟨telegramLayoutAndCheck, numbersOnTheLink, eventRecordLayout, recordsReadBack⟩

open Sys2Proof Sys2Proof.Machine in
/-- Settles O59: the image is the records and their check, and each record is read back where it stands. -/
theorem imageReadsBack : Obligations.ImageReadsBack := by
  refine ⟨fun c written => ⟨?_, ?_⟩, fun image => ?_⟩
  · rw [encodeImage, loadImage_append (length_encodeConfig written), decodeConfig_of_holds written (Holds.self _)]
  · rw [encodeImage, List.length_append, length_encodeConfig written, length_crcBytes]
  · intro check
    rw [isSome_loadImage, imageAgrees_iff, crcBytes, beBytes_two]
end

section
/-! The append of a record, and the requests of the event queue (chapter 12): O55. -/

namespace Sys2Proof.Machine

/-! ### The append of a record (R190, R193, R195) -/

theorem valueFits_iff (v : Int) : valueFits v = true ↔ -2147483648 ≤ v ∧ v ≤ 2147483647 := by simp [valueFits]

section
variable {value : Option Int} (fits : ∀ v : Int, value = some v → valueFits v = true)
include fits

theorem map_recordValue_of_fits (free : Nat) : value.map (recordValue free) = value := by
  cases value with
  | none => rfl
  | some v => exact congrArg some (if_pos (fits v rfl))

theorem usesFree_of_fits : usesFree value = 0 := by
  cases value with
  | none => rfl
  | some v => exact if_pos (fits v rfl)

end

theorem usesFree_of_outside {v : Int} (outside : ¬valueFits v = true) : usesFree (some v) = 1 := if_neg outside

/-- The queue after an append, over the records from the second on (R190). -/
theorem appendRecord_eq (rs : List Record) (r : Record) :
    appendRecord rs r
      = if rs.length < 48 then rs ++ [r]
        else
          match rs.drop 1 with
          | [] => [r]
          | x :: xs => { x with gap := true } :: xs ++ [r] := by
  cases rs with
  | nil => rfl
  | cons oldest rest => rfl

/-- An append, by the value that the record shows and the number of free values used for it. -/
theorem record_eq (p : Part) (code : EventCode) (unit : Option UnitNo) {value shown : Option Int} {used : Nat}
    (shows : value.map (recordValue p.freeCount) = shown) (uses : usesFree value = used) :
    p.record code unit value
      = { p with
          events :=
            { records := appendRecord p.events.records ⟨p.accounting.clock, code, unit, false, shown⟩
              flags := p.events.flags ||| code.cls.mark
              alert := decide ((p.events.flags ||| code.cls.mark) &&& p.config.enables ≠ 0#8) }
          freeCount := p.freeCount + used } := by
  subst shows uses
  rw [Part.record, alertOf_eq]

theorem recordAppended : Rules.RecordAppended := by
  intro p code unit value flags held appended
  have append_eq {shown : Option Int} {used : Nat} (shows : value.map (recordValue p.freeCount) = shown)
      (uses : usesFree value = used) : p.record code unit value = appended shown used := by
    rw [record_eq p code unit shows uses, appendRecord_eq]
    rfl
  refine ⟨fun range => ?_, fun v present outside => ?_⟩
  · have fits (v : Int) (present : value = some v) : valueFits v = true := (valueFits_iff v).mpr (range v present)
    exact append_eq (map_recordValue_of_fits fits _) (usesFree_of_fits fits)
  · subst present
    have unfit : ¬valueFits v = true := fun fits => by
      have range := (valueFits_iff v).mp fits
      omega
    exact ⟨recordValue p.freeCount v, append_eq rfl (usesFree_of_outside unfit)⟩

/-! ### TAKE_EVENTS, CLEAR_ALERTS and SET_ALERTS (R192 to R195) -/

section
variable (marks : Byte) (p : Part)

theorem serveTakeEvents_eq (count : Byte) :
    serveTakeEvents count p
      = ({ p with events.records := p.events.records.drop (takeCount count) },
        .answer
          ([codeByte (min (takeCount count) p.events.records.length),
              codeByte (p.events.records.drop (takeCount count)).length]
            ++ (p.events.records.take (takeCount count)).flatMap encodeRecord)) := by
  rw [serveTakeEvents, List.length_take]

theorem serveClearAlerts_eq :
    serveClearAlerts marks p
      = ({ p with
            events :=
              { p.events with
                flags := p.events.flags &&& ~~~marks
                alert := decide (p.events.flags &&& ~~~marks &&& p.config.enables ≠ 0#8) } },
        .answer [p.events.flags &&& ~~~marks, p.config.enables]) := by
  rw [← alertOf_eq]
  rfl

variable {marks p}

theorem serveSetAlerts_of_inForce (h : marks = p.config.enables) :
    serveSetAlerts marks p = (p, .answer [marks, p.events.flags]) :=
  congrArg (fun q : Part => (q, Response.answer [marks, p.events.flags])) (if_pos (beq_iff_eq.mpr h))

theorem serveSetAlerts_of_differing (h : marks ≠ p.config.enables) :
    serveSetAlerts marks p
      = ({ p with link := { p.link with after := some (.newEnables marks) } }, .answer [marks, p.events.flags]) :=
  congrArg (fun q : Part => (q, Response.answer [marks, p.events.flags])) (if_neg (mt beq_iff_eq.mp h))

end

theorem eventRequests : Rules.EventRequests := by
  intro tag b s receives p n held flags
  refine ⟨?_, ?_, fun inForce => ?_, fun differing => ?_⟩
  · exact next_withPart s (request_of_receives receives (serveTakeEvents_eq p b))
  · exact next_withPart s (request_of_receives receives (serveClearAlerts_eq b p))
  · exact next_withPart s (request_of_receives receives (serveSetAlerts_of_inForce inForce))
  · exact next_withPart s (request_of_receives receives (serveSetAlerts_of_differing differing))

end Sys2Proof.Machine

open Sys2Proof Sys2Proof.Machine in
/-- Settles O55, from the append of a record and the three requests of the event queue. -/
theorem eventQueueRequests : Obligations.EventQueueRequests := ⟨recordAppended, eventRequests⟩
end

section
/-! Saving the configuration (chapter 13): O57. -/

namespace Sys2Proof.Machine

/-! ### SAVE_CONFIG (R199) -/

section
variable {p : Part}

theorem serveSaveConfig_of_saving (saving : p.store.state = .saving) : serveSaveConfig p = (p, .refusal .busy) := by
  simp only [serveSaveConfig, saving]

theorem serveSaveConfig_of_unconfigured (idle : p.store.state = .idle) (unmarked : p.store.configured = false) :
    serveSaveConfig p = (p, .refusal .notConfigured) := by
  rw [serveSaveConfig, idle]
  exact if_neg (ne_true_of_eq_false unmarked)

theorem serveSaveConfig_of_configured (idle : p.store.state = .idle) (marked : p.store.configured = true) :
    serveSaveConfig p = (p.beginSave, .answer [1#8, codeByte p.store.lastResult.code]) := by
  rw [serveSaveConfig, idle]
  exact if_pos marked

end

theorem saveBegins : Rules.SaveBegins := by
  intro tag s receives p
  have row {q : Part} {r : Response} (served : serveSaveConfig p = (q, r)) :
      exec (.saveConfig tag) s = .next (s.withPart (q.reply RequestKind.saveConfig.byte tag r)) :=
    next_withPart s (request_of_receives receives served)
  refine ⟨fun saving => ?_, fun idle unmarked => ?_, fun idle marked => ?_⟩
  · exact row (serveSaveConfig_of_saving saving)
  · exact row (serveSaveConfig_of_unconfigured idle unmarked)
  · exact row (serveSaveConfig_of_configured idle marked)

/-! ### SAVE_ATTEMPT_COMPLETION (R200) -/

theorem exec_saveAttemptCompletion_of_saving {s : State} (saving : s.part.store.state = .saving) (passed : Bool) :
    exec (.saveAttemptCompletion passed) s
      = .next (s.withPart (if passed then s.part.savePassed else s.part.saveFailed)) := by
  refine next_withPart s ?_
  simp only [saving]

section
variable {p : Part}

theorem savePassed_of_copy {copy : WorkingCopy} (taken : p.store.saveCopy = some copy) :
    p.savePassed
      = Part.record { p with store := p.store.ended .ok (encodeImage copy) } .storeSaved none
          (some (p.store.attempts : Int)) := by
  rw [Part.savePassed, taken]
  rfl

/-- A failed attempt before the third: the next one begins with its erase (log 14). -/
theorem saveFailed_of_more (more : p.store.attempts < 3) :
    p.saveFailed = { p with store := { p.store with attempts := p.store.attempts + 1, image := [] } } :=
  if_pos more

/-- The third failed attempt: what it leaves in the image is free (log 11). -/
theorem saveFailed_of_last (last : 3 ≤ p.store.attempts) :
    p.saveFailed
      = Part.record
          { p with
            store := p.store.ended .failed (Config.failedSaveImage p.freeCount)
            freeCount := p.freeCount + 1 } .storeFailed none (some 3) :=
  if_neg (Nat.not_lt.mpr last)

end

theorem saveAttemptCompletes : Rules.SaveAttemptCompletes := by
  intro s saving p ended
  have row := exec_saveAttemptCompletion_of_saving saving
  refine ⟨fun copy taken => ?_, fun more => ?_, fun last => ⟨Config.failedSaveImage p.freeCount, ?_⟩⟩
  · exact (row true).trans (next_withPart s (savePassed_of_copy taken))
  · exact (row false).trans (next_withPart s (saveFailed_of_more more))
  · exact (row false).trans (next_withPart s (saveFailed_of_last last))

end Sys2Proof.Machine

open Sys2Proof Sys2Proof.Machine in
/-- Settles O57, from the save that SAVE_CONFIG begins and the completion of its attempts. -/
theorem savesOfConfiguration : Obligations.SavesOfConfiguration := ⟨saveBegins, saveAttemptCompletes⟩
end

section
/-! The command at the front of the queue, and that every command answers: O1. -/

namespace Sys2Proof.Machine

/-- A step with `c` at the front of the queue is `c` on the part with the queue's rest. -/
theorem step_of_front (c : Instr) (rest : List Instr) (p : Part) : step ⟨p, c :: rest⟩ = exec c ⟨p, rest⟩ := rfl

/-- The part idles on an empty queue (log 5). -/
theorem step_of_empty (p : Part) : step ⟨p, []⟩ = .next ⟨p, []⟩ := rfl

/-- No row of the command table refuses, faults or touches the queue: the meaning of each is `State.act` of one change
of the part, which answers the state with the part so changed. -/
theorem exec_answers_next (c : Instr) (s : State) : ∃ p : Part, exec c s = .next (s.withPart p) := by
  cases c <;> exact ⟨_, rfl⟩

end Sys2Proof.Machine

open Sys2Proof Sys2Proof.Machine in
/-- Settles O1, from the two cases of a step and from what every command answers. -/
theorem stepRunsFrontCommand : Obligations.StepRunsFrontCommand :=
  ⟨step_of_front, step_of_empty, exec_answers_next⟩
end
